-- ==== Sys2Proof/Word.lean ====
section
/-! DEFINITION. The word types of RTCORE (00_scope.md rules R11, R12, R14, R15). -/

namespace Sys2Proof

/-- A byte of ROWBUF, CACHE or DISP, and a brightness or shadow-table entry: 8 bits (rules R33, R51). -/
abbrev Byte := BitVec 8

/-- A 16-bit pattern; `toInt` reads it as a raw 8.8 value (rule R11), `toNat` as a u16. -/
abbrev I16 := BitVec 16

/-- A 32-bit pattern: the accumulator (rule R24) and a raw 8.8 value in a 32-bit container (rules R35, R72). -/
abbrev I32 := BitVec 32

/-- A colour index, two bits (rules R175, R200). -/
abbrev Colour := BitVec 2

/-- A command word `op[39:32] | a[31:16] | b[15:0]` (rule R70). -/
abbrev CmdWord := BitVec 40

/-- A 3-vector of raw 8.8 values: x to the right, y up, z forward (rule R15). -/
structure Vec3 where
  x : I16
  y : I16
  z : I16
deriving DecidableEq, Repr

end Sys2Proof
end

