-- ==== Sys2Proof/Syntax.lean ====
section
/-! DEFINITION. The 23 commands of RTCORE, one constructor per row of spec/opcode_table.json, with
their operands as 30_encoding.md rule R72 reads them. -/

namespace Sys2Proof

/-- A view id, one bit: 0 is front, 1 is back (rules R18, R72). -/
inductive ViewId where
  | front
  | back
deriving DecidableEq, Repr

/-- The palette pair a DITHER command names: surf 0 is sphere, 1 is ground (rule R72). -/
inductive Surface where
  | sphere
  | ground
deriving DecidableEq, Repr

/-- A command with its operands (rules R72, R73). A pixel coordinate, scanline or tile row is an index, a `Nat`;
`Instr.wellFormed` bounds it by its field. -/
inductive Instr where
  | nop
  | fxint (sa : I16)
  | fxtrunc (sa : I16)
  | fxmul (sa sb : I16)
  | macclr
  | mac (sa sb : I16)
  | macrd
  | init
  | setview (v : ViewId)
  | sphlut (ab : I32)
  | shdlut (ab : I32)
  | raydir (x y : Nat)
  | gndrow (y : Nat)
  | isect (x y : Nat)
  | shade (x y : Nat)
  | dither (bright : Byte) (xp yp : Bool) (surf : Surface)
  | tilepack (px : I16)
  | rendrow (tr : Nat)
  | rendline (y : Nat)
  | uprow (tr : Nat)
  | upline (y : Nat)
  | storerow (v : ViewId) (tr : Nat)
  | loadscene (v : ViewId)
deriving DecidableEq, Repr

end Sys2Proof
end

