-- ==== Sys2Proof/Config.lean ====
section
/-! DEFINITION. The configuration record of 00_scope.md rule R8: the scene constants the source fixes (rule R9), the
parameters with their defaults, and the constraints outside which a model accepts no configuration
(93_implementation_defined.md U10). Log entries 1 and 11. -/

namespace Sys2Proof

/-! ## The values rule R8 marks fixed -/

/-- SPH_C, the sphere's centre (0, 2.0, 6.0), raw. -/
def sphC : Vec3 := ⟨0, 512, 1536⟩

/-- SPH_R, the sphere's radius 2.0, raw. -/
def sphR : I16 := 512

/-- LIGHT0, the light direction of view 0, raw. -/
def light0 : Vec3 := ⟨-128, 179, 128⟩

/-- SPH_N, the number of sphere LUT buckets. -/
def sphN : Nat := 64

/-- SHD_N, the number of shadow LUT buckets. -/
def shdN : Nat := 128

/-- AMBIENT, the ambient brightness. -/
def ambient : Nat := 50

/-- DITHER_M[yp][xp], the 2×2 threshold matrix ((0,128),(192,64)). -/
def ditherM (yp xp : Bool) : Nat :=
  match yp, xp with
  | false, false => 0
  | false, true => 128
  | true, false => 192
  | true, true => 64

/-! ## The parameters -/

/-- The parameters of rule R8, unchecked. Fixed-point values are raw. -/
structure Params where
  /-- W, render window width in pixels. -/
  w : Nat
  /-- H, render window height in pixels. -/
  h : Nat
  /-- DSTEP, ray-direction increment per pixel. -/
  dstep : Nat
  /-- RAY_DZ, constant z component of every ray. -/
  rayDz : I16
  /-- CAM, camera position. -/
  cam : Vec3
  /-- SPH_MIN, low bound of the sphere LUT domain. -/
  sphMin : Nat
  /-- SPH_SHIFT, log2 of the sphere LUT bucket width. -/
  sphShift : Nat
  /-- SHD_SHIFT, log2 of the shadow LUT bucket width. -/
  shdShift : Nat
  /-- SHD_R2, shadow radius squared. -/
  shdR2 : Nat
  /-- GND_DY_MIN, least downward y-direction for a ground hit. -/
  gndDyMin : Nat
  /-- GND_T_MAX, largest accepted ground parameter. -/
  gndTMax : Nat
  /-- NRM_SHIFT, right shift that scales (hit − centre) to a unit normal. -/
  nrmShift : Nat
  /-- DIFF_SCALE, 8.8 multiplier of n·l. -/
  diffScale : Nat
  /-- T_MISS, the sphere LUT `t` entry of a bucket with no real intersection. -/
  tMiss : I16
  /-- TILE_BASE, index of the first display tile RTCORE owns. -/
  tileBase : Nat
deriving DecidableEq, Repr

/-- oc.z = SPH_C.z − CAM.z, exact. -/
def Params.ocz (p : Params) : Int := sphC.z.toInt - p.cam.z.toInt

/-- The low 16 bits of a value, signed: what a narrowing keeps (rule R91). -/
def keep16 (v : Int) : Int := (BitVec.ofInt 16 v).toInt

/-- The value INIT gives OC2 (rule R122) when oc.x and oc.y are zero. -/
def Params.oc2 (p : Params) : Int := keep16 (keep16 p.ocz * keep16 p.ocz / 256)

/-- The value INIT gives OCD (rule R122). -/
def Params.ocd (p : Params) : Int := keep16 (keep16 p.ocz * p.rayDz.toInt / 256)

/-- W and H are multiples of 8 from 8 to 256 (rule R8). -/
def Params.windowOk (p : Params) : Bool :=
  decide (p.w % 8 = 0 ∧ 8 ≤ p.w ∧ p.w ≤ 256 ∧ p.h % 8 = 0 ∧ 8 ≤ p.h ∧ p.h ≤ 256)

/-- DSTEP and RAY_DZ (rule R8): squares of the direction components do not overflow. -/
def Params.rayOk (p : Params) : Bool :=
  decide (1 ≤ p.dstep ∧ (max p.w p.h / 2) * p.dstep ≤ 2896 ∧ 0 < p.rayDz.toInt)

/-- The camera shares the sphere's x and y, is not inside it and does not have it behind (rules R8, R10, R122;
93 U10). -/
def Params.cameraOk (p : Params) : Bool :=
  decide (p.cam.x = sphC.x ∧ p.cam.y = sphC.y ∧ 0 ≤ p.ocz ∧ sphR.toInt * sphR.toInt ≤ p.ocz * p.ocz ∧
    0 ≤ p.ocd ∧ sphR.toInt * sphR.toInt / 256 ≤ p.oc2)

/-- SPH_MIN, SPH_SHIFT, SHD_SHIFT, SHD_R2 (rule R8). -/
def Params.lutOk (p : Params) : Bool :=
  decide (1 ≤ p.sphMin ∧ p.sphShift ≤ 15 ∧ p.shdR2 % 4 = 0 ∧ p.shdR2 < shdN * 2 ^ p.shdShift)

/-- GND_DY_MIN, GND_T_MAX, NRM_SHIFT, DIFF_SCALE (rule R8). -/
def Params.shadeOk (p : Params) : Bool :=
  decide (1 ≤ p.gndDyMin ∧ p.gndTMax ≤ 32767 ∧ ((2 ^ p.nrmShift * 256 : Nat) : Int) = sphR.toInt ∧
    ambient + p.diffScale ≤ 255)

/-- Every constraint of rule R8 holds. A configuration outside them is not one of RTCORE (93 U10, "refuse"). -/
def Params.accepted (p : Params) : Bool :=
  p.windowOk && p.rayOk && p.cameraOk && p.lutOk && p.shadeOk

/-- The configuration record of RTCORE: parameters together with the proof that the constraints hold, so that the
configurations of 93 U10 cannot be written down. -/
structure Config extends Params where
  ok : toParams.accepted = true
deriving DecidableEq, Repr

/-- The defaults of rule R8. -/
def Params.default : Params where
  w := 64
  h := 64
  dstep := 4
  rayDz := 256
  cam := ⟨0, 512, 0⟩
  sphMin := 256
  sphShift := 0
  shdShift := 4
  shdR2 := 1024
  gndDyMin := 8
  gndTMax := 16384
  nrmShift := 1
  diffScale := 205
  tMiss := 0x7FFF
  tileBase := 0

/-- The default configuration (rule R8). -/
def Config.default : Config := ⟨Params.default, by decide⟩

/-- TW, tiles per row (rule R8). -/
def Config.tw (c : Config) : Nat := c.w / 8

/-- TH, tile rows (rule R8). -/
def Config.th (c : Config) : Nat := c.h / 8

/-- NT, tiles (rule R8). -/
def Config.nt (c : Config) : Nat := c.tw * c.th

/-- SPH_MAX, the high bound of the sphere LUT domain (rule R8). -/
def Config.sphMax (c : Config) : Nat := c.sphMin + sphN * 2 ^ c.sphShift - 1

/-- UMB_R2, umbra radius squared, SHD_R2 >> 2 (rules R8, R124). -/
def Config.umbR2 (c : Config) : Nat := c.shdR2 / 4

end Sys2Proof
end

