-- ==== Sys2Proof/Machine/State.lean ====
section
/-! DEFINITION. The state of RTCORE as plain data (10_state.md rule R20) with its reset values (rule R40), the inputs
the step reads (rule R20), and the reasons a step can stop. -/

namespace Sys2Proof.Machine

open Sys2Proof

/-- A byte space: the listed bytes by address, strictly rising. An unlisted byte has no value: nothing has written it
(rule R41; log entries 4 and 5). -/
abbrev Memory := List Host.Cell

/-- The byte spaces of rule R50. -/
inductive Space where
  | rowbuf
  | cache (v : ViewId)
  | disp
deriving DecidableEq, Repr

/-- The surface a pixel's ray hits (rule R19). -/
inductive Kind where
  | sky
  | sphere
  | ground
deriving DecidableEq, Repr

/-- What the host does at the command port: it presents a word (rule R70) or asserts reset (rule R250). -/
inductive HostEvent where
  | command (cw : CmdWord)
  | reset
deriving DecidableEq, Repr

/-- The global tables, written by INIT (rules R30 to R33). Element `i` of a table is entry `i` of its list. -/
structure GlobalTables where
  /-- DX, W elements. -/
  dx : List I16
  /-- DX2, W elements. -/
  dx2 : List I16
  /-- DY, H elements. -/
  dy : List I16
  /-- DY2, H elements. -/
  dy2 : List I16
  /-- DZ. -/
  dz : I16
  /-- DZ2. -/
  dz2 : I16
  /-- OC2. -/
  oc2 : I16
  /-- OCD. -/
  ocd : I16
  /-- R2C. -/
  r2c : I16
  /-- SPH_T, 64 elements. -/
  sphT : List I16
  /-- SPH_P2, 64 elements. -/
  sphP2 : List I16
  /-- SHD, 128 elements. -/
  shd : List Byte
deriving DecidableEq, Repr

/-- The per-view state, written by SETVIEW (rules R34, R35). -/
structure ViewTables where
  /-- L. -/
  light : Vec3
  /-- SX. -/
  sx : I16
  /-- SZ. -/
  sz : I16
  /-- GHIT, H elements. -/
  ghit : List Bool
  /-- GT, H elements. -/
  gt : List I16
  /-- GZ, H elements. -/
  gz : List I16
  /-- SDZ2, H elements. -/
  sdz2 : List I32
deriving DecidableEq, Repr

/-- The whole state (rule R20), then the inputs that are not RTCORE's state but that a step reads. -/
structure State where
  /-- STATUS, register 0 (rule R21). -/
  status : BitVec 16
  /-- ERRCODE, register 1 (rule R22). -/
  errcode : BitVec 16
  /-- R0, register 2 (rule R23). -/
  r0 : BitVec 16
  /-- R1, register 3 (rule R23). -/
  r1 : BitVec 16
  /-- R2, register 4 (rule R23). -/
  r2 : BitVec 16
  /-- ACC, register 5 (rule R24). -/
  acc : I32
  /-- Whether MACCLR has given ACC a value since reset: false where ACC is unwritten, or holds a sum begun on an unwritten
  ACC (rules R41, R252; log entry 3). The model's own record for the premise of MAC and MACRD; no command reads it. -/
  accWritten : Bool
  /-- The global tables (rules R30 to R33). -/
  tab : GlobalTables
  /-- The per-view state (rules R34, R35). -/
  view : ViewTables
  /-- ROWBUF (rule R36). -/
  rowbuf : Memory
  /-- CACHE[0] (rule R37). -/
  cache0 : Memory
  /-- CACHE[1] (rule R37). -/
  cache1 : Memory
  /-- DISP, the display's tile memory as RTCORE has written it (rule R38). -/
  disp : Memory
  /-- The command that waits for vblank, if one does (rules R59, R236; log entry 7). -/
  held : Option Instr
  /-- Input: the configuration record (rules R8, R251; log entry 1). -/
  cfg : Config
  /-- Input: the level vblank now (rule R39; log entry 6). -/
  vblank : Bool
  /-- Input: the levels vblank takes at the next steps, one a step; after them it keeps its last (log entry 6). -/
  vblankNext : List Bool
  /-- Input: what the host does next, in order (rules R58, R260; log entry 8). -/
  events : List HostEvent
deriving DecidableEq, Repr

/-- Why the machine stops with a fault. RTCORE itself has no fault (rule R230). -/
inductive Fault where
  /-- Raised by `memRead` and `memWrite` for an address outside the byte space (rule R56: no command forms one).
  Safe: the model stops where the spec gives no access. -/
  | noSuchByte (sp : Space) (addr : Nat)
deriving DecidableEq, Repr

/-- Why an instruction has no meaning. -/
inductive Refusal where
  /-- Raised by an arm of `exec` whose instruction is not modelled; no arm is one. Safe. -/
  | notModelled (mnemonic : String)
deriving DecidableEq, Repr

/-- The tables after reset: every element unspecified (rule R40), zero in this model (DESIGN CHOICE, unsafe, log entry 2). -/
def GlobalTables.reset (c : Config) : GlobalTables where
  dx := List.replicate c.w 0
  dx2 := List.replicate c.w 0
  dy := List.replicate c.h 0
  dy2 := List.replicate c.h 0
  dz := 0
  dz2 := 0
  oc2 := 0
  ocd := 0
  r2c := 0
  sphT := List.replicate sphN 0
  sphP2 := List.replicate sphN 0
  shd := List.replicate shdN 0

/-- The per-view state after reset: unspecified (rule R40), zero in this model (DESIGN CHOICE, unsafe, log entry 2). -/
def ViewTables.reset (c : Config) : ViewTables where
  light := ⟨0, 0, 0⟩
  sx := 0
  sz := 0
  ghit := List.replicate c.h false
  gt := List.replicate c.h 0
  gz := List.replicate c.h 0
  sdz2 := List.replicate c.h 0

/-- The machine right after reset under a configuration, idle, with nothing presented and vblank high: STATUS and ERRCODE
are 0, everything else is unspecified (rule R40; log entries 2, 4, 5, 6, 8). -/
def State.resetOf (c : Config) : State where
  status := 0
  errcode := 0
  r0 := 0
  r1 := 0
  r2 := 0
  acc := 0
  accWritten := false
  tab := GlobalTables.reset c
  view := ViewTables.reset c
  rowbuf := []
  cache0 := []
  cache1 := []
  disp := []
  held := none
  cfg := c
  vblank := true
  vblankNext := []
  events := []

/-- The machine right after reset, with the default configuration (rules R8, R40, R250). -/
def State.reset : State := State.resetOf Config.default

end Sys2Proof.Machine
end

