-- ==== Sys2Proof/Machine/Flags.lean ====
section
/-! DEFINITION. The flags of STATUS (10_state.md rules R21, R28) and the arithmetic that sets OVF: narrowing and wrapping
(40_fixed_point_mac.md rules R91, R92). A computation that may set OVF is a value with the flag beside it. -/

namespace Sys2Proof.Machine

open Sys2Proof

/-! ## STATUS -/

/-- INIT_DONE, bit 0. -/
def State.initDone (s : State) : Bool := s.status.getLsbD 0

/-- VIEW_VALID, bit 1. -/
def State.viewValid (s : State) : Bool := s.status.getLsbD 1

/-- VIEW, bit 2. -/
def State.viewId (s : State) : ViewId := if s.status.getLsbD 2 then .back else .front

/-- OVF, bit 3. -/
def State.ovf (s : State) : Bool := s.status.getLsbD 3

/-- ERR, bit 4. -/
def State.err (s : State) : Bool := s.status.getLsbD 4

/-- `STATUS.OVF <- 1` where `b` holds; OVF is sticky (rule R21). -/
def State.noteOvf (b : Bool) (s : State) : State :=
  { s with status := s.status ||| (if b then 0x0008 else 0) }

/-- `STATUS.INIT_DONE <- 1` (rule R120). -/
def State.setInitDone (s : State) : State := { s with status := s.status ||| 0x0001 }

/-- `STATUS.VIEW <- v; STATUS.VIEW_VALID <- 1` (rule R130). -/
def State.setViewBits (v : ViewId) (s : State) : State :=
  { s with status := (s.status &&& ~~~0x0004) ||| (match v with | .front => 0x0002 | .back => 0x0006) }

/-! ## Values with an overflow flag -/

/-- A computed value and whether some narrowing on the way lost bits. -/
structure Flagged (α : Type) where
  val : α
  ovf : Bool
deriving DecidableEq, Repr

/-- A value computed without a narrowing. -/
def Flagged.pure {α : Type} (a : α) : Flagged α := ⟨a, false⟩

/-- One computation after another; the flag is sticky. -/
def Flagged.bind {α β : Type} (m : Flagged α) (f : α → Flagged β) : Flagged β :=
  let r := f m.val
  ⟨r.val, m.ovf || r.ovf⟩

/-- A function of the value that narrows nothing. -/
def Flagged.map {α β : Type} (f : α → β) (m : Flagged α) : Flagged β := ⟨f m.val, m.ovf⟩

/-- A list of computations, one after another. -/
def Flagged.seq {α : Type} : List (Flagged α) → Flagged (List α)
  | [] => .pure []
  | m :: ms => m.bind fun a => (Flagged.seq ms).map fun as => a :: as

/-- Deliver the value to the state and record the overflow in STATUS.OVF. -/
def State.commit {α : Type} (m : Flagged α) (k : α → State → State) (s : State) : State :=
  k m.val (s.noteOvf m.ovf)

/-- `narrow16(v)`, rule R91: the low 16 bits, OVF when v does not fit. -/
def narrow16 (v : Int) : Flagged I16 := ⟨BitVec.ofInt 16 v, decide (v < -32768 ∨ 32767 < v)⟩

/-- `wrap32(v)`, rule R92: the low 32 bits, OVF when v does not fit. -/
def wrap32 (v : Int) : Flagged I32 := ⟨BitVec.ofInt 32 v, decide (v < -2147483648 ∨ 2147483647 < v)⟩

end Sys2Proof.Machine
end

