-- ==== Sys2Proof/Machine/Fixed.lean ====
section
/-! DEFINITION. The notation's integer primitives (00_scope.md rule R13) and the fixed-point layer
(40_fixed_point_mac.md rules R93 to R99). Arithmetic is on mathematical integers; a value enters a register or
table only through a narrowing (rule R12). -/

namespace Sys2Proof.Machine

open Sys2Proof

/-- `asr(v, k)` = floor(v / 2^k) (rules R13, R98). -/
def asr (v : Int) (k : Nat) : Int := v / 2 ^ k

/-- `clamp(v, lo, hi)` (rule R13). -/
def clamp (v lo hi : Int) : Int := if v < lo then lo else if hi < v then hi else v

/-- The bits of a square root below 2^k, from the highest down, added to the root `r` found so far. -/
def isqrtFrom (n : Nat) : Nat → Nat → Nat
  | 0, r => r
  | k + 1, r =>
    if (r + 2 ^ k) * (r + 2 ^ k) ≤ n then isqrtFrom n k (r + 2 ^ k) else isqrtFrom n k r

/-- `isqrt(n)`: the largest s with s·s ≤ n (rules R13, R99). -/
def isqrt (n : Nat) : Nat := isqrtFrom n (n.log2 / 2 + 1) 0

/-- `fx_from_int(n)` (rule R93). -/
def fxFromInt (n : Int) : Flagged I16 := narrow16 (n * 256)

/-- `fx_to_int(a)` (rule R94); it never overflows. -/
def fxToInt (a : I16) : Int := asr a.toInt 8

/-- `fx_mul(a, b)` (rule R95). -/
def fxMul (a b : I16) : Flagged I16 := narrow16 (asr (a.toInt * b.toInt) 8)

/-- `add16(a, b)` (rule R96). -/
def add16 (a b : I16) : Flagged I16 := narrow16 (a.toInt + b.toInt)

/-- `sub16(a, b)` (rule R96). -/
def sub16 (a b : I16) : Flagged I16 := narrow16 (a.toInt - b.toInt)

/-- `sq32(a)` (rule R96), never narrowed. -/
def sq32 (a : I16) : Int := asr (a.toInt * a.toInt) 8

/-- One multiply-accumulate on a 32-bit intermediate (rules R97, R105). -/
def macStep (acc : I32) (a b : I16) : Flagged I32 := wrap32 (acc.toInt + a.toInt * b.toInt)

/-- The shift back down of an accumulator (rules R97, R106). -/
def macNarrow (acc : I32) : Flagged I16 := narrow16 (asr acc.toInt 8)

/-- `dot3(u, v)` (rule R97): products summed on a private accumulator, shifted once. -/
def dot3 (u v : Vec3) : Flagged I16 :=
  (macStep 0 u.x v.x).bind fun a0 =>
  (macStep a0 u.y v.y).bind fun a1 =>
  (macStep a1 u.z v.z).bind fun a2 =>
  macNarrow a2

end Sys2Proof.Machine
end

