-- ==== Sys2Proof/Machine/Operands.lean ====
section
/-! DEFINITION. The operand forms (30_encoding.md rule R72) as the meanings use them, the range checks (rule R75), and
the codes results are reported with (92_eei_decisions.md D35). Operands reach the meanings already cut from the word
by the decoder. -/

namespace Sys2Proof.Machine

open Sys2Proof

/-- `px[c]` of TILEPACK, c in 0..7: bits 15 − 2c and 14 − 2c of the operand; px[0] is leftmost. -/
def pixelOf (a : I16) (c : Nat) : Colour := a.extractLsb' (14 - 2 * c) 2

/-- The eight pixels of a TILEPACK operand, leftmost first. -/
def pixelsOf (a : I16) : List Colour := (List.range 8).map (pixelOf a)

/-- x < W and y < H: the check of RAYDIR, ISECT and SHADE (rule R75). -/
def pixelInRange (c : Config) (x y : Nat) : Bool := decide (x < c.w ∧ y < c.h)

/-- y < H: the check of GNDROW, RENDLINE and UPLINE (rule R75). -/
def lineInRange (c : Config) (y : Nat) : Bool := decide (y < c.h)

/-- tr < TH: the check of RENDROW, UPROW and STOREROW (rule R75). -/
def tileRowInRange (c : Config) (tr : Nat) : Bool := decide (tr < c.th)

/-- A bit as a register value. -/
def bitWord (b : Bool) : BitVec 16 := if b then 1 else 0

/-- The kind codes 0 sky, 1 sphere, 2 ground (rule R163, D35). -/
def Kind.code : Kind → BitVec 16
  | .sky => 0
  | .sphere => 1
  | .ground => 2

/-- An unsigned value as a register value, `zext_16` (rule R13). -/
def natWord (n : Nat) : BitVec 16 := BitVec.ofNat 16 n

end Sys2Proof.Machine
end

