-- ==== Sys2Proof/Machine/Ops.lean ====
section
/-! DEFINITION. The named operations over registers and memory: the read port (10_state.md rule R25), result registers
(rule R23), byte memories (20_memory.md rules R55, R56), `Error(c)` (60_exceptions.md rule R232), the vblank wait (rule
R59) and the host's reset (70_reset_and_hazards.md rule R250). RTCORE has no exception to take and none to return from
(rule R230); `State.raiseError` is its one mechanism. -/

namespace Sys2Proof.Machine

open Sys2Proof

/-- What a step answers. -/
abbrev Result := Host.Outcome State Fault Refusal

/-! ## Registers -/

/-- `R[0] <- v`. -/
def State.setR0 (v : BitVec 16) (s : State) : State := { s with r0 := v }

/-- `R[0] <- u; R[1] <- v`. -/
def State.setR01 (u v : BitVec 16) (s : State) : State := { s with r0 := u, r1 := v }

/-- `R[0] <- u; R[1] <- v; R[2] <- w`. -/
def State.setR012 (u v w : BitVec 16) (s : State) : State := { s with r0 := u, r1 := v, r2 := w }

/-- `ACC <- v`, computed from ACC (rule R105): whether ACC is written stays as it was (log entry 3). -/
def State.setAcc (v : I32) (s : State) : State := { s with acc := v }

/-- `ACC <- 0` (rule R104), which makes ACC written (rule R252). -/
def State.clearAcc (s : State) : State := { s with acc := 0, accWritten := true }

/-- The global tables replaced (rule R120). -/
def State.setTab (g : GlobalTables) (s : State) : State := { s with tab := g }

/-- The per-view state replaced (rule R130). -/
def State.setView (w : ViewTables) (s : State) : State := { s with view := w }

/-- The command held (rule R59). -/
def State.hold (i : Instr) (s : State) : State := { s with held := some i }

/-- The read port: a register by its number, zero-extended; 6 and 7 read as 0 (rule R25). -/
def State.readPort (s : State) (n : BitVec 3) : BitVec 32 :=
  match n.toNat with
  | 0 => s.status.setWidth 32
  | 1 => s.errcode.setWidth 32
  | 2 => s.r0.setWidth 32
  | 3 => s.r1.setWidth 32
  | 4 => s.r2.setWidth 32
  | 5 => s.acc
  | _ => 0

/-! ## Byte memories -/

/-- The byte at an address; none where nothing has written it. -/
def Memory.read : Memory → Nat → Option Byte
  | [], _ => none
  | (k, b) :: m, a => if a = k then some b else Memory.read m a

/-- Store at an address, keeping addresses strictly rising; storing an unwritten byte makes the byte unwritten. -/
def Memory.write : Memory → Nat → Option Byte → Memory
  | [], _, none => []
  | [], a, some b => [(a, b)]
  | (k, c) :: m, a, v =>
    if a < k then
      match v with
      | none => (k, c) :: m
      | some b => (a, b) :: (k, c) :: m
    else if a = k then
      match v with
      | none => m
      | some b => (a, b) :: m
    else (k, c) :: Memory.write m a v

/-- Every listed address is at least `lo` and addresses strictly rise. -/
def Memory.risesFrom : Nat → Memory → Bool
  | _, [] => true
  | lo, (k, _) :: m => decide (lo ≤ k) && Memory.risesFrom (k + 1) m

/-- The canonical form: addresses strictly rise. An unlisted byte has no value, so no entry can equal it. -/
def Memory.wf (m : Memory) : Bool := Memory.risesFrom 0 m

/-- The first address of a byte space (rule R55). -/
def Space.base (c : Config) : Space → Nat
  | .rowbuf => 0
  | .cache _ => 0
  | .disp => c.tileBase * 16

/-- The number of bytes of a byte space; of DISP, those RTCORE owns (rules R38, R50). -/
def Space.size (c : Config) : Space → Nat
  | .rowbuf => c.tw * 16
  | .cache _ => c.nt * 16
  | .disp => c.nt * 16

/-- The address lies in the space. -/
def Space.holds (c : Config) (sp : Space) (a : Nat) : Bool :=
  decide (sp.base c ≤ a ∧ a < sp.base c + sp.size c)

/-- The bytes of a space. -/
def State.mem (s : State) : Space → Memory
  | .rowbuf => s.rowbuf
  | .cache .front => s.cache0
  | .cache .back => s.cache1
  | .disp => s.disp

/-- The state with the bytes of a space replaced. -/
def State.setMem (sp : Space) (m : Memory) (s : State) : State :=
  match sp with
  | .rowbuf => { s with rowbuf := m }
  | .cache .front => { s with cache0 := m }
  | .cache .back => { s with cache1 := m }
  | .disp => { s with disp := m }

/-- The byte at an address of a space, none where unwritten: how statements look at memory. -/
def State.byte (s : State) (sp : Space) (a : Nat) : Option Byte := (s.mem sp).read a

/-- `MemRead(S, addr, 1)` (rule R56): the byte, or no value where it is unwritten (log entry 4). -/
def memRead (sp : Space) (a : Nat) (s : State) : Except Fault (Option Byte) :=
  if sp.holds s.cfg a then .ok (s.byte sp a) else .error (.noSuchByte sp a)

/-- `MemWrite(S, addr, 1, v)` (rule R56). -/
def memWrite (sp : Space) (a : Nat) (v : Option Byte) (s : State) : Except Fault State :=
  if sp.holds s.cfg a then .ok (s.setMem sp ((s.mem sp).write a v)) else .error (.noSuchByte sp a)

/-- Byte stores, in order. -/
def memWriteAll (sp : Space) : List (Nat × Byte) → State → Except Fault State
  | [], s => .ok s
  | (a, b) :: ws, s =>
    match memWrite sp a (some b) s with
    | .ok s' => memWriteAll sp ws s'
    | .error f => .error f

/-- Byte copies `(destination, source)` from one space to another, in order. An unwritten byte is copied as an
unwritten byte (93 U2, U3; log entry 4). -/
def memCopyAll (dst src : Space) : List (Nat × Nat) → State → Except Fault State
  | [], s => .ok s
  | (d, a) :: ms, s =>
    match memRead src a s with
    | .error f => .error f
    | .ok v =>
      match memWrite dst d v s with
      | .error f => .error f
      | .ok s' => memCopyAll dst src ms s'

/-- A command's memory work as its outcome. -/
def finish : Except Fault State → Result
  | .ok s => .next s
  | .error f => .fault f

/-! ## Layout (rule R55) -/

/-- ROWBUF byte of tile column tc, byte k. -/
def rowbufAddr (tc k : Nat) : Nat := tc * 16 + k

/-- CACHE byte of tile n, byte k. -/
def cacheAddr (n k : Nat) : Nat := n * 16 + k

/-- DISP byte of tile n, byte k. -/
def dispAddr (c : Config) (n k : Nat) : Nat := (c.tileBase + n) * 16 + k

/-! ## Errors -/

/-- The error codes of rule R231. -/
inductive ErrorCode where
  | illegal
  | range
deriving DecidableEq, Repr

/-- What ERRCODE records (rule R231). -/
def ErrorCode.code : ErrorCode → BitVec 16
  | .illegal => 1
  | .range => 2

/-- `Error(c)` (rule R232): the first error wins ERRCODE, ERR is set, nothing else changes. -/
def State.raiseError (c : ErrorCode) (s : State) : State :=
  { s with
    errcode := if s.err then s.errcode else c.code
    status := s.status ||| 0x0010 }

/-- A command with a range check (rule R75): Error(2) where the check fails, before anything else. -/
def checked (inRange : Bool) (s : State) (k : State → Result) : Result :=
  if inRange then k s else .next (s.raiseError .range)

/-! ## The vblank wait -/

/-- `await vblank` (rule R59): the command goes on while vblank is 1; else it is held, and nothing else happens. -/
def awaitVblank (i : Instr) (s : State) (k : State → Result) : Result :=
  if s.vblank then k s else .next (s.hold i)

/-! ## Reset -/

/-- The host's reset (rule R250): RTCORE's own state takes its reset values and RTCORE is idle; DISP, the
configuration and the inputs are not touched (rules R250, R251; log entry 9). -/
def State.hostReset (s : State) : State :=
  { State.resetOf s.cfg with
    disp := s.disp
    vblank := s.vblank
    vblankNext := s.vblankNext
    events := s.events }

end Sys2Proof.Machine
end

