-- ==== Sys2Proof/Machine/FixedPoint.lean ====
section
/-! DEFINITION. The arithmetic family: NOP, FXINT, FXTRUNC, FXMUL, MACCLR, MAC, MACRD (40_fixed_point_mac.md rules
R100 to R106). -/

namespace Sys2Proof.Machine

open Sys2Proof

/-- NOP (rule R100): nothing. -/
def execNop (s : State) : Result := .next s

/-- FXINT sa (rule R101): `R[0] <- fx_from_int(sa)`. -/
def execFxint (sa : I16) (s : State) : Result :=
  .next (s.commit (fxFromInt sa.toInt) State.setR0)

/-- FXTRUNC sa (rule R102): `R[0] <- fx_to_int(sa)`. -/
def execFxtrunc (sa : I16) (s : State) : Result :=
  .next (s.setR0 (BitVec.ofInt 16 (fxToInt sa)))

/-- FXMUL sa, sb (rule R103): `R[0] <- fx_mul(sa, sb)`. -/
def execFxmul (sa sb : I16) (s : State) : Result :=
  .next (s.commit (fxMul sa sb) State.setR0)

/-- MACCLR (rule R104): `ACC <- 0`. -/
def execMacclr (s : State) : Result := .next s.clearAcc

/-- MAC sa, sb (rule R105): `ACC <- wrap32(sext_32(ACC) + sa * sb)`. -/
def execMac (sa sb : I16) (s : State) : Result :=
  .next (s.commit (macStep s.acc sa sb) State.setAcc)

/-- MACRD (rule R106): `R[0] <- narrow16(asr(sext_32(ACC), 8))`. -/
def execMacrd (s : State) : Result :=
  .next (s.commit (macNarrow s.acc) State.setR0)

end Sys2Proof.Machine
end

