-- ==== Sys2Proof/Machine/Tables.lean ====
section
/-! DEFINITION. The table family: INIT, SETVIEW, SPHLUT, SHDLUT, RAYDIR, GNDROW (41_tables.md). -/

namespace Sys2Proof.Machine

open Sys2Proof

/-- Element `i` of a table of raw values (rule R13). A table always has the element asked for in a state a run
reaches; log entry 13. -/
def elem16 (t : List I16) (i : Nat) : I16 := t.getD i 0

/-! ## INIT: the global tables -/

/-- `DX[x]` (rule R121). -/
def rayX (c : Config) (x : Nat) : Flagged I16 :=
  narrow16 (((x : Int) - ((c.w / 2 : Nat) : Int)) * (c.dstep : Int))

/-- `DY[y]` (rule R121). -/
def rayY (c : Config) (y : Nat) : Flagged I16 :=
  narrow16 ((((c.h / 2 : Nat) : Int) - (y : Int)) * (c.dstep : Int))

/-- The squares of a table of direction components (rule R121). -/
def buildSquares (t : List I16) : Flagged (List I16) := Flagged.seq (t.map fun d => fxMul d d)

/-- oc = SPH_C − CAM, per component (rule R122). -/
def buildOc (c : Config) : Flagged Vec3 :=
  (sub16 sphC.x c.cam.x).bind fun x =>
  (sub16 sphC.y c.cam.y).bind fun y =>
  (sub16 sphC.z c.cam.z).map fun z => ⟨x, y, z⟩

/-- d·d at the low edge of sphere LUT bucket `i` (rule R123). -/
def sphBucket (c : Config) (i : Nat) : Nat := c.sphMin + i * 2 ^ c.sphShift

/-- The discriminant (oc·d)² − (d·d)(oc·oc − r²), raw 16.16 (rule R123). -/
def sphDisc (c : Config) (ocd cterm : I16) (i : Nat) : Int :=
  ocd.toInt * ocd.toInt - (sphBucket c i : Int) * cterm.toInt

/-- `SPH_P2[i]` (rule R123). -/
def sphP2Entry (c : Config) (ocd : I16) (i : Nat) : Flagged I16 :=
  narrow16 ((ocd.toInt * ocd.toInt) / (sphBucket c i : Int))

/-- `SPH_T[i]` (rule R123): the near root, or T_MISS where no real intersection exists. -/
def sphTEntry (c : Config) (ocd cterm : I16) (i : Nat) : Flagged I16 :=
  if 0 ≤ sphDisc c ocd cterm i then
    narrow16 (((ocd.toInt - (isqrt (sphDisc c ocd cterm i).toNat : Int)) * 256) / (sphBucket c i : Int))
  else .pure c.tMiss

/-- `SHD[i]` (rule R124): 0 in the umbra, 255 outside the shadow radius, a ramp linear in the squared distance between. -/
def shdEntry (c : Config) (i : Nat) : Byte :=
  let d2 := i * 2 ^ c.shdShift
  if d2 ≤ c.umbR2 then 0
  else if c.shdR2 ≤ d2 then 255
  else BitVec.ofNat 8 (((d2 - c.umbR2) * 255) / (c.shdR2 - c.umbR2))

/-- All of INIT's tables (rules R120 to R124); they depend on the configuration alone. -/
def buildGlobals (c : Config) : Flagged GlobalTables :=
  (fxMul c.rayDz c.rayDz).bind fun dz2 =>
  (Flagged.seq ((List.range c.w).map (rayX c))).bind fun dx =>
  (buildSquares dx).bind fun dx2 =>
  (Flagged.seq ((List.range c.h).map (rayY c))).bind fun dy =>
  (buildSquares dy).bind fun dy2 =>
  (buildOc c).bind fun oc =>
  (dot3 oc oc).bind fun oc2 =>
  (fxMul oc.z c.rayDz).bind fun ocd =>
  (fxMul sphR sphR).bind fun r2c =>
  (sub16 oc2 r2c).bind fun cterm =>
  (Flagged.seq ((List.range sphN).map (sphP2Entry c ocd))).bind fun sphP2 =>
  (Flagged.seq ((List.range sphN).map (sphTEntry c ocd cterm))).map fun sphT =>
  { dx := dx, dx2 := dx2, dy := dy, dy2 := dy2, dz := c.rayDz, dz2 := dz2, oc2 := oc2, ocd := ocd, r2c := r2c
    sphT := sphT, sphP2 := sphP2, shd := (List.range shdN).map (shdEntry c) }

/-- INIT (rule R120). -/
def execInit (s : State) : Result :=
  .next (s.commit (buildGlobals s.cfg) fun g t => (t.setTab g).setInitDone)

/-! ## SETVIEW: the per-view state -/

/-- `select_light(v)` (rule R131): the back view flips x and z. -/
def selectLight (v : ViewId) : Flagged Vec3 :=
  match v with
  | .front => .pure light0
  | .back =>
    (narrow16 (-light0.x.toInt)).bind fun x =>
    (narrow16 (-light0.z.toInt)).map fun z => ⟨x, light0.y, z⟩

/-- k, sphere height over light y: the one division of the view switch (rule R132). -/
def shadowScale (light : Vec3) : Flagged I16 := narrow16 ((sphC.y.toInt * 256) / light.y.toInt)

/-- One coordinate of the shadow centre: C − fx_mul(L, k) (rule R132). -/
def shadowCoord (centre light k : I16) : Flagged I16 :=
  (fxMul light k).bind fun m => sub16 centre m

/-- One row of the ground table. -/
structure GroundRow where
  hit : Bool
  t : I16
  z : I16
deriving DecidableEq, Repr

/-- `t32`, camera height over |dy|, for a downward row (rule R133). -/
def groundT (c : Config) (dy : I16) : Int := (c.cam.y.toInt * 256) / (-dy.toInt)

/-- Row of the ground table for a row direction `dy` (rule R133); zeros where the row has no ground hit. -/
def groundRow (c : Config) (dy dz : I16) : Flagged GroundRow :=
  if dy.toInt ≤ -(c.gndDyMin : Int) ∧ 0 < groundT c dy ∧ groundT c dy ≤ (c.gndTMax : Int) then
    let t := BitVec.ofInt 16 (groundT c dy)
    (fxMul t dz).bind fun m => (add16 c.cam.z m).map fun z => ⟨true, t, z⟩
  else .pure ⟨false, 0, 0⟩

/-- `SDZ2[y]` (rule R134), kept in 32 bits. -/
def shadowRow (sz : I16) (r : GroundRow) : Flagged I32 :=
  if r.hit then (sub16 r.z sz).map fun d => BitVec.ofInt 32 (sq32 d) else .pure 0

/-- All of SETVIEW's tables (rules R131 to R134): a function of v, the configuration, DY and DZ (rule R135). -/
def buildView (c : Config) (g : GlobalTables) (v : ViewId) : Flagged ViewTables :=
  (selectLight v).bind fun light =>
  (shadowScale light).bind fun k =>
  (shadowCoord sphC.x light.x k).bind fun sx =>
  (shadowCoord sphC.z light.z k).bind fun sz =>
  (Flagged.seq ((List.range c.h).map fun y => groundRow c (elem16 g.dy y) g.dz)).bind fun rows =>
  (Flagged.seq (rows.map (shadowRow sz))).map fun sdz2 =>
  { light := light, sx := sx, sz := sz
    ghit := rows.map GroundRow.hit, gt := rows.map GroundRow.t, gz := rows.map GroundRow.z, sdz2 := sdz2 }

/-- SETVIEW v (rule R130). -/
def execSetview (v : ViewId) (s : State) : Result :=
  .next (s.commit (buildView s.cfg s.tab v) fun w t => (t.setView w).setViewBits v)

/-! ## The lookups -/

/-- `sph_index(dd32)` (rule R140): clamped to the nearest bucket. -/
def sphIndex (c : Config) (dd : Int) : Nat :=
  (clamp (asr (dd - (c.sphMin : Int)) c.sphShift) 0 ((sphN : Int) - 1)).toNat

/-- `shd_index(d2)` (rule R142): clamped to the nearest bucket. -/
def shdIndex (c : Config) (d2 : Int) : Nat := (clamp (asr d2 c.shdShift) 0 ((shdN : Int) - 1)).toNat

/-- `SHD[i]` of the stored table. -/
def shdElem (g : GlobalTables) (i : Nat) : Byte := g.shd.getD i 0

/-- SPHLUT ab32 (rule R141). -/
def execSphlut (ab : I32) (s : State) : Result :=
  let i := sphIndex s.cfg ab.toInt
  .next (s.setR012 (elem16 s.tab.sphT i) (elem16 s.tab.sphP2 i) (natWord i))

/-- SHDLUT ab32 (rule R143): R2 unchanged. -/
def execShdlut (ab : I32) (s : State) : Result :=
  let i := shdIndex s.cfg ab.toInt
  .next (s.setR01 ((shdElem s.tab i).setWidth 16) (natWord i))

/-- RAYDIR x, y (rule R144). -/
def execRaydir (x y : Nat) (s : State) : Result :=
  checked (pixelInRange s.cfg x y) s fun s =>
    .next (s.setR012 (elem16 s.tab.dx x) (elem16 s.tab.dy y) s.tab.dz)

/-- GNDROW y (rule R145). -/
def execGndrow (y : Nat) (s : State) : Result :=
  checked (lineInRange s.cfg y) s fun s =>
    .next (s.setR012 (bitWord (s.view.ghit.getD y false)) (elem16 s.view.gt y) (elem16 s.view.gz y))

end Sys2Proof.Machine
end

