-- ==== Sys2Proof/Machine/Pixel.lean ====
section
/-! DEFINITION. The pixel family: ISECT, SHADE, DITHER (42_intersect_shade.md). -/

namespace Sys2Proof.Machine

open Sys2Proof

/-! ## Intersector -/

/-- `dd32(x, y)` (rule R160): the sum of the stored squares, not narrowed. -/
def pixelDD (g : GlobalTables) (x y : Nat) : Int :=
  (elem16 g.dx2 x).toInt + (elem16 g.dy2 y).toInt + g.dz2.toInt

/-- What the sphere test answers (rule R161). -/
structure SphereHit where
  hit : Bool
  t : I16
  idx : Nat
deriving DecidableEq, Repr

/-- `sphere_test(x, y)` (rule R161); a tangent ray hits. -/
def sphereTest (c : Config) (g : GlobalTables) (x y : Nat) : Flagged SphereHit :=
  let i := sphIndex c (pixelDD g x y)
  (sub16 g.oc2 (elem16 g.sphP2 i)).map fun dist2 =>
    ⟨decide (0 < g.ocd.toInt ∧ dist2.toInt ≤ g.r2c.toInt), elem16 g.sphT i, i⟩

/-- `select(sph, ts, gnd, tg)` (rule R163): the sphere wins only where strictly nearer, signed. -/
def selectHit (sph : Bool) (ts : I16) (gnd : Bool) (tg : I16) : Kind × I16 :=
  if sph && (!gnd || decide (ts.toInt < tg.toInt)) then (.sphere, ts)
  else if gnd then (.ground, tg)
  else (.sky, 0)

/-- What the intersector answers: the surface, the hit parameter, the sphere LUT index (rule R164). -/
structure Hit where
  kind : Kind
  t : I16
  idx : Nat
deriving DecidableEq, Repr

/-- `intersect(x, y)` (rules R162, R164). -/
def intersect (c : Config) (g : GlobalTables) (v : ViewTables) (x y : Nat) : Flagged Hit :=
  (sphereTest c g x y).map fun sp =>
    let k := selectHit sp.hit sp.t (v.ghit.getD y false) (elem16 v.gt y)
    ⟨k.1, k.2, sp.idx⟩

/-- ISECT x, y (rule R166). -/
def execIsect (x y : Nat) (s : State) : Result :=
  checked (pixelInRange s.cfg x y) s fun s =>
    .next (s.commit (intersect s.cfg s.tab s.view x y) fun k => State.setR012 k.kind.code k.t (natWord k.idx))

/-! ## Shader -/

/-- One component of the sphere normal: (CAM + fx_mul(t, d) − SPH_C) >> NRM_SHIFT (rule R170). -/
def normalCoord (c : Config) (t cam d centre : I16) : Flagged I16 :=
  (fxMul t d).bind fun m =>
  (add16 cam m).bind fun p =>
  (sub16 p centre).map fun q => BitVec.ofInt 16 (asr q.toInt c.nrmShift)

/-- `sphere_normal(x, y, t)` (rule R170). -/
def sphereNormal (c : Config) (g : GlobalTables) (x y : Nat) (t : I16) : Flagged Vec3 :=
  (normalCoord c t c.cam.x (elem16 g.dx x) sphC.x).bind fun nx =>
  (normalCoord c t c.cam.y (elem16 g.dy y) sphC.y).bind fun ny =>
  (normalCoord c t c.cam.z g.dz sphC.z).map fun nz => ⟨nx, ny, nz⟩

/-- AMBIENT plus the scaled positive diffuse term, clamped to 0..255 (rules R171, R172). -/
def lambert (c : Config) (ndl : I16) : Byte :=
  let diff := if 0 < ndl.toInt then asr (ndl.toInt * (c.diffScale : Int)) 8 else 0
  BitVec.ofInt 8 (clamp ((ambient : Int) + diff) 0 255)

/-- `sphere_brightness(x, y, t)` (rule R171). -/
def sphereBrightness (c : Config) (g : GlobalTables) (v : ViewTables) (x y : Nat) (t : I16) : Flagged Byte :=
  (sphereNormal c g x y t).bind fun n => (dot3 n v.light).map (lambert c)

/-- d2 of `ground_brightness` (rule R173): the squared planar distance to the shadow centre, kept wide. -/
def groundDist2 (v : ViewTables) (ddx : I16) (y : Nat) : Int := sq32 ddx + (v.sdz2.getD y 0).toInt

/-- `ground_brightness(x, y)` (rule R173). -/
def groundBrightness (c : Config) (g : GlobalTables) (v : ViewTables) (x y : Nat) : Flagged Byte :=
  (fxMul (elem16 v.gt y) (elem16 g.dx x)).bind fun m =>
  (add16 c.cam.x m).bind fun gx =>
  (sub16 gx v.sx).map fun ddx => shdElem g (shdIndex c (groundDist2 v ddx y))

/-- The dark colour index, 0 for both surfaces (rule R175). -/
def darkColour : Colour := 0

/-- The lit colour index of a surface (rule R175). -/
def litColour : Surface → Colour
  | .sphere => 1
  | .ground => 2

/-- The sky's colour index (rule R176). -/
def skyColour : Colour := 3

/-- `dither(bright, xp, yp, surf)` (rule R174): strictly above the threshold is lit. -/
def dither (bright : Byte) (xp yp : Bool) (surf : Surface) : Colour :=
  if ditherM yp xp < bright.toNat then litColour surf else darkColour

/-- The parity of a coordinate, `x mod 2`. -/
def parity (n : Nat) : Bool := decide (n % 2 = 1)

/-- What the shader answers: colour, brightness, surface (rule R177). -/
structure Shaded where
  colour : Colour
  bright : Byte
  kind : Kind
deriving DecidableEq, Repr

/-- A brightness dithered at a pixel of a surface (rule R177). -/
def shaded (x y : Nat) (surf : Surface) (k : Kind) (bright : Byte) : Shaded :=
  ⟨dither bright (parity x) (parity y) surf, bright, k⟩

/-- `shade(x, y)` (rule R177). -/
def shadePixel (c : Config) (g : GlobalTables) (v : ViewTables) (x y : Nat) : Flagged Shaded :=
  (intersect c g v x y).bind fun k =>
    match k.kind with
    | .sphere => (sphereBrightness c g v x y k.t).map (shaded x y .sphere .sphere)
    | .ground => (groundBrightness c g v x y).map (shaded x y .ground .ground)
    | .sky => .pure ⟨skyColour, 0, .sky⟩

/-- SHADE x, y (rule R178). -/
def execShade (x y : Nat) (s : State) : Result :=
  checked (pixelInRange s.cfg x y) s fun s =>
    .next (s.commit (shadePixel s.cfg s.tab s.view x y) fun k =>
      State.setR012 (k.colour.setWidth 16) (k.bright.setWidth 16) k.kind.code)

/-- DITHER bright, xp, yp, surf (rule R179): R1, R2 unchanged. -/
def execDither (bright : Byte) (xp yp : Bool) (surf : Surface) (s : State) : Result :=
  .next (s.setR0 ((dither bright xp yp surf).setWidth 16))

end Sys2Proof.Machine
end

