-- ==== Sys2Proof/Machine/Raster.lean ====
section
/-! DEFINITION. The raster and cache family: TILEPACK, RENDROW, RENDLINE, UPROW, UPLINE, STOREROW, LOADSCENE
(43_raster_cache.md). -/

namespace Sys2Proof.Machine

open Sys2Proof

/-! ## Tile format -/

/-- One plane of a pixel row: bit `n` of pixel c goes to bit 7 − c (rule R200). -/
def packPlane (n : Nat) (px : List Colour) : Byte :=
  (List.range 8).foldl (fun acc c => acc ||| (if (px.getD c 0).getLsbD n then (1 : Byte) <<< (7 - c) else 0)) 0

/-- The low plane of `tilepack` (rule R200). -/
def packLo (px : List Colour) : Byte := packPlane 0 px

/-- The high plane of `tilepack` (rule R200). -/
def packHi (px : List Colour) : Byte := packPlane 1 px

/-- TILEPACK a (rule R201): R2 unchanged. -/
def execTilepack (px : I16) (s : State) : Result :=
  .next (s.setR01 ((packLo (pixelsOf px)).setWidth 16) ((packHi (pixelsOf px)).setWidth 16))

/-! ## Rendering into the row buffer -/

/-- The eight colours of tile column tc on scanline y (rule R202). -/
def tileLine (c : Config) (g : GlobalTables) (v : ViewTables) (y tc : Nat) : Flagged (List Colour) :=
  Flagged.seq ((List.range 8).map fun k => (shadePixel c g v (tc * 8 + k) y).map Shaded.colour)

/-- The two bytes tile column tc stores for pixel row r (rule R202). -/
def tileLineBytes (r tc : Nat) (px : List Colour) : List (Nat × Byte) :=
  [(rowbufAddr tc (2 * r), packLo px), (rowbufAddr tc (2 * r + 1), packHi px)]

/-- The stores of `render_line(y)` (rule R202), tile column by tile column. -/
def renderLineWrites (c : Config) (g : GlobalTables) (v : ViewTables) (y : Nat) : Flagged (List (Nat × Byte)) :=
  (Flagged.seq ((List.range c.tw).map fun tc =>
    (tileLine c g v y tc).map (tileLineBytes (y % 8) tc))).map List.flatten

/-- `render_line(y)` (rule R202). -/
def renderLine (y : Nat) (s : State) : Except Fault State :=
  let ws := renderLineWrites s.cfg s.tab s.view y
  memWriteAll .rowbuf ws.val (s.noteOvf ws.ovf)

/-- `render_line` of several scanlines, one after another (rule R203). -/
def renderLines : List Nat → State → Except Fault State
  | [], s => .ok s
  | y :: ys, s =>
    match renderLine y s with
    | .ok s' => renderLines ys s'
    | .error f => .error f

/-- The scanlines of tile row tr, top first. -/
def linesOfRow (tr : Nat) : List Nat := (List.range 8).map fun r => tr * 8 + r

/-- RENDROW tr (rule R203). -/
def execRendrow (tr : Nat) (s : State) : Result :=
  checked (tileRowInRange s.cfg tr) s fun s => finish (renderLines (linesOfRow tr) s)

/-- RENDLINE y (rule R204). -/
def execRendline (y : Nat) (s : State) : Result :=
  checked (lineInRange s.cfg y) s fun s => finish (renderLine y s)

/-! ## Upload to the display -/

/-- The copies of UPROW: every byte of every tile of tile row tr (rule R205). -/
def uprowMoves (c : Config) (tr : Nat) : List (Nat × Nat) :=
  (List.range c.tw).flatMap fun tc =>
    (List.range 16).map fun k => (dispAddr c (tr * c.tw + tc) k, rowbufAddr tc k)

/-- The copies of UPLINE: the two bytes of pixel row y mod 8 of every tile of tile row y >> 3 (rule R206). -/
def uplineMoves (c : Config) (y : Nat) : List (Nat × Nat) :=
  (List.range c.tw).flatMap fun tc =>
    [2 * (y % 8), 2 * (y % 8) + 1].map fun k => (dispAddr c ((y / 8) * c.tw + tc) k, rowbufAddr tc k)

/-- UPROW tr (rule R205). -/
def execUprow (tr : Nat) (s : State) : Result :=
  checked (tileRowInRange s.cfg tr) s fun s =>
    awaitVblank (.uprow tr) s fun s => finish (memCopyAll .disp .rowbuf (uprowMoves s.cfg tr) s)

/-- UPLINE y (rule R206). -/
def execUpline (y : Nat) (s : State) : Result :=
  checked (lineInRange s.cfg y) s fun s =>
    awaitVblank (.upline y) s fun s => finish (memCopyAll .disp .rowbuf (uplineMoves s.cfg y) s)

/-! ## Scene cache -/

/-- The copies of STOREROW (rule R207). -/
def storerowMoves (c : Config) (tr : Nat) : List (Nat × Nat) :=
  (List.range (c.tw * 16)).map fun j => (tr * c.tw * 16 + j, j)

/-- The copies of LOADSCENE (rule R208). -/
def loadsceneMoves (c : Config) : List (Nat × Nat) :=
  (List.range c.nt).flatMap fun n => (List.range 16).map fun k => (dispAddr c n k, cacheAddr n k)

/-- STOREROW v, tr (rule R207): no vblank wait. -/
def execStorerow (v : ViewId) (tr : Nat) (s : State) : Result :=
  checked (tileRowInRange s.cfg tr) s fun s =>
    finish (memCopyAll (.cache v) .rowbuf (storerowMoves s.cfg tr) s)

/-- LOADSCENE v (rule R208). -/
def execLoadscene (v : ViewId) (s : State) : Result :=
  awaitVblank (.loadscene v) s fun s => finish (memCopyAll .disp (.cache v) (loadsceneMoves s.cfg) s)

end Sys2Proof.Machine
end

