-- ==== Sys2Proof/Machine/Dispatch.lean ====
section
/-! DEFINITION. The meaning of every command, one arm per constructor of Instr. -/

namespace Sys2Proof.Machine

open Sys2Proof

def exec (i : Instr) (s : State) : Host.Outcome State Fault Refusal :=
  match i with
  | .nop => Sys2Proof.Machine.execNop s
  | .fxint sa => Sys2Proof.Machine.execFxint sa s
  | .fxtrunc sa => Sys2Proof.Machine.execFxtrunc sa s
  | .fxmul sa sb => Sys2Proof.Machine.execFxmul sa sb s
  | .macclr => Sys2Proof.Machine.execMacclr s
  | .mac sa sb => Sys2Proof.Machine.execMac sa sb s
  | .macrd => Sys2Proof.Machine.execMacrd s
  | .init => Sys2Proof.Machine.execInit s
  | .setview v => Sys2Proof.Machine.execSetview v s
  | .sphlut ab => Sys2Proof.Machine.execSphlut ab s
  | .shdlut ab => Sys2Proof.Machine.execShdlut ab s
  | .raydir x y => Sys2Proof.Machine.execRaydir x y s
  | .gndrow y => Sys2Proof.Machine.execGndrow y s
  | .isect x y => Sys2Proof.Machine.execIsect x y s
  | .shade x y => Sys2Proof.Machine.execShade x y s
  | .dither bright xp yp surf => Sys2Proof.Machine.execDither bright xp yp surf s
  | .tilepack px => Sys2Proof.Machine.execTilepack px s
  | .rendrow tr => Sys2Proof.Machine.execRendrow tr s
  | .rendline y => Sys2Proof.Machine.execRendline y s
  | .uprow tr => Sys2Proof.Machine.execUprow tr s
  | .upline y => Sys2Proof.Machine.execUpline y s
  | .storerow v tr => Sys2Proof.Machine.execStorerow v tr s
  | .loadscene v => Sys2Proof.Machine.execLoadscene v s

end Sys2Proof.Machine
end

