-- ==== Sys2Proof/WellFormed.lean ====
section
/-! DEFINITION. Which commands the 40-bit word can carry: every index fits its 8-bit field (30_encoding.md rules
R71, R72). Whether an index names an existing pixel or row is a check the machine makes (rule R75), not this one. -/

namespace Sys2Proof

/-- The index operand fits the 8-bit field its format gives it (formats I, VI and XY, rule R71). -/
def fitsIndexField (n : Nat) : Bool := decide (n < 256)

/-- Every operand fits the field its format gives it; only the index operands can fail to. -/
def Instr.wellFormed : Instr → Bool
  | .raydir x y | .isect x y | .shade x y => fitsIndexField x && fitsIndexField y
  | .gndrow y | .rendline y | .upline y => fitsIndexField y
  | .rendrow tr | .uprow tr | .storerow _ tr => fitsIndexField tr
  | .nop | .fxint _ | .fxtrunc _ | .fxmul _ _ | .macclr | .mac _ _ | .macrd | .init | .setview _
  | .sphlut _ | .shdlut _ | .dither _ _ _ _ | .tilepack _ | .loadscene _ => true

end Sys2Proof
end

