-- ==== Sys2Proof/Decode.lean ====
section
/-! DEFINITION. Decoding of command words (30_encoding.md rules R70 to R74, R76) and, after it, their encoding
(rule R78). Decoding is total on all 2^40 words and rejects by name. -/

namespace Sys2Proof

/-- The opcodes of rule R73, one per command. -/
inductive Op where
  | nop | fxint | fxtrunc | fxmul | macclr | mac | macrd
  | init | setview | sphlut | shdlut | raydir | gndrow
  | isect | shade | dither | tilepack
  | rendrow | rendline | uprow | upline | storerow | loadscene
deriving DecidableEq, Repr

/-- The formats of rule R71. -/
inductive Format where
  | n | a | ab | w | v | i | vi | xy | d
deriving DecidableEq, Repr

/-- Why a word is illegal (rule R74): both are Error(1). -/
inductive DecodeError where
  /-- The opcode `cw[39:32]` is not in the table of rule R73. -/
  | reservedOpcode
  /-- A bit that the command's format reserves is 1. -/
  | reservedBit
deriving DecidableEq, Repr

/-- The opcode byte, rule R73. -/
def Op.code : Op → BitVec 8
  | .nop => 0x00 | .fxint => 0x01 | .fxtrunc => 0x02 | .fxmul => 0x03
  | .macclr => 0x04 | .mac => 0x05 | .macrd => 0x06
  | .init => 0x10 | .setview => 0x11 | .sphlut => 0x12 | .shdlut => 0x13
  | .raydir => 0x14 | .gndrow => 0x15
  | .isect => 0x20 | .shade => 0x21 | .dither => 0x22 | .tilepack => 0x23
  | .rendrow => 0x30 | .rendline => 0x31 | .uprow => 0x32 | .upline => 0x33
  | .storerow => 0x34 | .loadscene => 0x35

/-- The format, rule R73. -/
def Op.format : Op → Format
  | .nop | .macclr | .macrd | .init => .n
  | .fxint | .fxtrunc | .tilepack => .a
  | .fxmul | .mac => .ab
  | .sphlut | .shdlut => .w
  | .setview | .loadscene => .v
  | .gndrow | .rendrow | .rendline | .uprow | .upline => .i
  | .storerow => .vi
  | .raydir | .isect | .shade => .xy
  | .dither => .d

/-- A 1 at every opcode bit and every reserved bit, rule R71. -/
def Format.mask : Format → CmdWord
  | .n => 0xFFFFFFFFFF
  | .a => 0xFF0000FFFF
  | .ab => 0xFF00000000
  | .w => 0xFF00000000
  | .v => 0xFFFFFFFFFE
  | .i => 0xFFFFFFFF00
  | .vi => 0xFFFFFEFF00
  | .xy => 0xFFFF00FF00
  | .d => 0xFFFF00FFF8

/-- The opcode with a given byte; none for the reserved bytes of rule R76. -/
def opOfCode (op : BitVec 8) : Option Op :=
  match op.toNat with
  | 0x00 => some .nop | 0x01 => some .fxint | 0x02 => some .fxtrunc | 0x03 => some .fxmul
  | 0x04 => some .macclr | 0x05 => some .mac | 0x06 => some .macrd
  | 0x10 => some .init | 0x11 => some .setview | 0x12 => some .sphlut | 0x13 => some .shdlut
  | 0x14 => some .raydir | 0x15 => some .gndrow
  | 0x20 => some .isect | 0x21 => some .shade | 0x22 => some .dither | 0x23 => some .tilepack
  | 0x30 => some .rendrow | 0x31 => some .rendline | 0x32 => some .uprow | 0x33 => some .upline
  | 0x34 => some .storerow | 0x35 => some .loadscene
  | _ => none

/-- The opcode field `cw[39:32]` (rule R70). -/
def opField (cw : CmdWord) : BitVec 8 := cw.extractLsb' 32 8

/-- The first operand field `cw[31:16]` (rule R70). -/
def aField (cw : CmdWord) : BitVec 16 := cw.extractLsb' 16 16

/-- The second operand field `cw[15:0]` (rule R70). -/
def bField (cw : CmdWord) : BitVec 16 := cw.extractLsb' 0 16

/-- An unsigned index in the low byte of a field: `idx`, `x`, `y` of rule R72. -/
def indexOf (f : BitVec 16) : Nat := (f.extractLsb' 0 8).toNat

/-- A view id in bit 0 of a field: `v` of rule R72. -/
def viewOf (f : BitVec 16) : ViewId := if f.getLsbD 0 then .back else .front

/-- The surface bit b[2] of format D (rule R72). -/
def surfaceOf (b : BitVec 16) : Surface := if b.getLsbD 2 then .ground else .sphere

/-- The operands of each command, cut from its fields (rule R72). -/
def Op.build (o : Op) (a b : BitVec 16) : Instr :=
  match o with
  | .nop => .nop
  | .fxint => .fxint a
  | .fxtrunc => .fxtrunc a
  | .fxmul => .fxmul a b
  | .macclr => .macclr
  | .mac => .mac a b
  | .macrd => .macrd
  | .init => .init
  | .setview => .setview (viewOf b)
  | .sphlut => .sphlut (a ++ b)
  | .shdlut => .shdlut (a ++ b)
  | .raydir => .raydir (indexOf a) (indexOf b)
  | .gndrow => .gndrow (indexOf b)
  | .isect => .isect (indexOf a) (indexOf b)
  | .shade => .shade (indexOf a) (indexOf b)
  | .dither => .dither (a.extractLsb' 0 8) (b.getLsbD 0) (b.getLsbD 1) (surfaceOf b)
  | .tilepack => .tilepack a
  | .rendrow => .rendrow (indexOf b)
  | .rendline => .rendline (indexOf b)
  | .uprow => .uprow (indexOf b)
  | .upline => .upline (indexOf b)
  | .storerow => .storerow (viewOf a) (indexOf b)
  | .loadscene => .loadscene (viewOf b)

/-- The word `match` of a command: its opcode in bits 39:32, zeros below (rule R71). -/
def Op.matchWord (o : Op) : CmdWord := o.code ++ (0 : BitVec 16) ++ (0 : BitVec 16)

/-- Decoding, rule R74: the opcode must be in the table, then `cw AND mask` must equal `op << 32`. -/
def decode (cw : CmdWord) : Except DecodeError Instr :=
  match opOfCode (opField cw) with
  | none => .error .reservedOpcode
  | some o =>
    if cw &&& o.format.mask = o.matchWord then .ok (o.build (aField cw) (bField cw))
    else .error .reservedBit

/-- The command word whose 40 bits are `w`, numbered as spec/opcode_table.json numbers them: bits at and above
`nbits` are zero. -/
def tableWord (nbits w : Nat) : CmdWord := BitVec.ofNat 40 (w % 2 ^ nbits)

/-- What the decoder reads from a table word; none where it refuses. -/
def decodeTableWord (nbits w : Nat) : Option Instr :=
  match decode (tableWord nbits w) with
  | .ok i => some i
  | .error _ => none

/-! ## Encoding (rule R78) -/

/-- The opcode of a command. -/
def Instr.op : Instr → Op
  | .nop => .nop | .fxint _ => .fxint | .fxtrunc _ => .fxtrunc | .fxmul _ _ => .fxmul
  | .macclr => .macclr | .mac _ _ => .mac | .macrd => .macrd
  | .init => .init | .setview _ => .setview | .sphlut _ => .sphlut | .shdlut _ => .shdlut
  | .raydir _ _ => .raydir | .gndrow _ => .gndrow
  | .isect _ _ => .isect | .shade _ _ => .shade | .dither _ _ _ _ => .dither | .tilepack _ => .tilepack
  | .rendrow _ => .rendrow | .rendline _ => .rendline | .uprow _ => .uprow | .upline _ => .upline
  | .storerow _ _ => .storerow | .loadscene _ => .loadscene

/-- A view id as the field value v (rule R78). -/
def ViewId.field : ViewId → BitVec 16
  | .front => 0
  | .back => 1

/-- The field b of a DITHER command: `xp OR (yp << 1) OR (surf << 2)` (rule R78). -/
def ditherField (xp yp : Bool) (surf : Surface) : BitVec 16 :=
  (if xp then 1 else 0) ||| (if yp then 2 else 0) |||
    (match surf with | .sphere => 0 | .ground => 4)

/-- The field a of a command (rule R78). -/
def Instr.fieldA : Instr → BitVec 16
  | .fxint sa | .fxtrunc sa | .fxmul sa _ | .mac sa _ | .tilepack sa => sa
  | .sphlut ab | .shdlut ab => ab.extractLsb' 16 16
  | .raydir x _ | .isect x _ | .shade x _ => BitVec.ofNat 16 x
  | .dither bright _ _ _ => bright.setWidth 16
  | .storerow v _ => v.field
  | .nop | .macclr | .macrd | .init | .setview _ | .gndrow _ | .rendrow _ | .rendline _ | .uprow _
  | .upline _ | .loadscene _ => 0

/-- The field b of a command (rule R78). -/
def Instr.fieldB : Instr → BitVec 16
  | .fxmul _ sb | .mac _ sb => sb
  | .sphlut ab | .shdlut ab => ab.extractLsb' 0 16
  | .raydir _ y | .isect _ y | .shade _ y | .gndrow y | .rendline y | .upline y => BitVec.ofNat 16 y
  | .rendrow tr | .uprow tr | .storerow _ tr => BitVec.ofNat 16 tr
  | .setview v | .loadscene v => v.field
  | .dither _ xp yp surf => ditherField xp yp surf
  | .nop | .fxint _ | .fxtrunc _ | .macclr | .macrd | .init | .tilepack _ => 0

/-- `encode(op, a, b) = (op << 32) OR (zext_16(a) << 16) OR zext_16(b)` (rule R78). -/
def encode (i : Instr) : CmdWord := i.op.code ++ i.fieldA ++ i.fieldB

end Sys2Proof
end

