-- ==== Sys2Proof/Machine/Fetch.lean ====
section
/-! DEFINITION. What RTCORE does next: there is no fetch and no program counter (10_state.md rule R27); it takes the next
thing the host presents, unless a command is held (20_memory.md rules R58, R59; 70_reset_and_hazards.md rule R260). -/

namespace Sys2Proof.Machine

open Sys2Proof

/-- The step's sample of the input level vblank: the next listed level, or the last one kept (log entry 6). -/
def State.sampleVblank (s : State) : State :=
  match s.vblankNext with
  | [] => s
  | v :: vs => { s with vblank := v, vblankNext := vs }

/-- What a step does. -/
inductive Action where
  /-- The host asserts reset (rule R250). -/
  | reset
  /-- The held command goes on waiting (rule R59). -/
  | resume (i : Instr)
  /-- The next command word (rule R260). -/
  | command (cw : CmdWord)
  /-- Nothing is presented. -/
  | idle
deriving DecidableEq, Repr

/-- The next action and the state with what it takes removed: a reset the host asserts next comes first, then a held
command, then the next word (log entries 8 and 9). -/
def State.nextAction (s : State) : Action × State :=
  match s.events, s.held with
  | .reset :: es, _ => (.reset, { s with events := es })
  | _, some i => (.resume i, { s with held := none })
  | .command cw :: es, none => (.command cw, { s with events := es })
  | [], none => (.idle, s)

/-- The state that presents a word to the command port next, with no command held (log entry 8). -/
def State.present (cw : CmdWord) (s : State) : State :=
  { s with held := none, events := .command cw :: s.events }

end Sys2Proof.Machine
end

