-- ==== Sys2Proof/Machine/Step.lean ====
section
/-! DEFINITION. One step of RTCORE (70_reset_and_hazards.md rule R260). -/

namespace Sys2Proof.Machine

open Sys2Proof

/-- A command word: decode, which may raise Error(1), then the command (rule R260). -/
def runWord (cw : CmdWord) (s : State) : Host.Outcome State Fault Refusal :=
  match decode cw with
  | .ok i => exec i s
  | .error _ => .next (s.raiseError .illegal)

/-- Carry out an action. -/
def act (a : Action) (s : State) : Host.Outcome State Fault Refusal :=
  match a with
  | .reset => .next s.hostReset
  | .resume i => exec i s
  | .command cw => runWord cw s
  | .idle => .next s

/-- One step: sample vblank, then carry out what comes next. -/
def step (s : State) : Host.Outcome State Fault Refusal :=
  act s.sampleVblank.nextAction.1 s.sampleVblank.nextAction.2

/-- The state in which the next step runs the table word `w`. -/
def State.withFetchWord (s : State) (nbits w : Nat) : State := s.present (tableWord nbits w)

end Sys2Proof.Machine
end

