-- ==== Sys2Proof/Machine/Pseudo.lean ====
section
/-! DEFINITION. The pseudo-instructions FXSQ, DOT3, PRERENDER, PRERENDERL (30_encoding.md rule R79): fixed expansions into
commands, with no word of their own (log entry 20). -/

namespace Sys2Proof.Machine

open Sys2Proof

/-- The pseudo-instructions of rule R79. -/
inductive Pseudo where
  | fxsq (s : I16)
  | dot3 (a0 b0 a1 b1 a2 b2 : I16)
  | prerender (v : ViewId)
  | prerenderl (v : ViewId)
deriving DecidableEq, Repr

/-- The commands a pseudo-instruction stands for (rule R79). -/
def Pseudo.expand (c : Config) : Pseudo → List Instr
  | .fxsq s => [.fxmul s s]
  | .dot3 a0 b0 a1 b1 a2 b2 => [.macclr, .mac a0 b0, .mac a1 b1, .mac a2 b2, .macrd]
  | .prerender v =>
    .setview v :: (List.range c.th).flatMap fun tr => [.rendrow tr, .uprow tr, .storerow v tr]
  | .prerenderl v =>
    .setview v :: (List.range c.h).flatMap fun y =>
      [.rendline y, .upline y] ++ (if y % 8 = 7 then [.storerow v (y / 8)] else [])

/-- The command words a host presents for a pseudo-instruction (rules R78, R79). -/
def Pseudo.words (c : Config) (p : Pseudo) : List CmdWord := (p.expand c).map encode

/-- The effects of commands one after another, each complete before the next (rule R58). It does not wait: where
a copy command is among them, take vblank = 1, so that none is held (rule R59). -/
def execAll : List Instr → State → Result
  | [], s => .next s
  | i :: is, s =>
    match exec i s with
    | .next s' => execAll is s'
    | .fault f => .fault f
    | .refused r => .refused r

end Sys2Proof.Machine
end

