-- ==== Sys2Proof/Safety.lean ====
section
/-! DEFINITION. What counts as a safe run of RTCORE, in the terms statements use: the range check and the wait of a
command as predicates, the host's duties (70_reset_and_hazards.md rule R252), and the invariants of a reachable
state. -/

namespace Sys2Proof.Machine

open Sys2Proof

/-- The command passes the range check of rule R75 (commands without one pass). -/
def inRange (c : Config) : Instr → Bool
  | .raydir x y | .isect x y | .shade x y => decide (x < c.w ∧ y < c.h)
  | .gndrow y | .rendline y | .upline y => decide (y < c.h)
  | .rendrow tr | .uprow tr | .storerow _ tr => decide (tr < c.h / 8)
  | .nop | .fxint _ | .fxtrunc _ | .fxmul _ _ | .macclr | .mac _ _ | .macrd | .init | .setview _
  | .sphlut _ | .shdlut _ | .dither _ _ _ _ | .tilepack _ | .loadscene _ => true

/-- The command waits for vblank: UPROW, UPLINE, LOADSCENE (rules R39, R59). -/
def waitsForVblank : Instr → Bool
  | .uprow _ | .upline _ | .loadscene _ => true
  | .nop | .fxint _ | .fxtrunc _ | .fxmul _ _ | .macclr | .mac _ _ | .macrd | .init | .setview _
  | .sphlut _ | .shdlut _ | .raydir _ _ | .gndrow _ | .isect _ _ | .shade _ _ | .dither _ _ _ _ | .tilepack _
  | .rendrow _ | .rendline _ | .storerow _ _ => false

/-- A step answers a next state: RTCORE neither faults nor refuses (rule R230). -/
def State.steps (s : State) : Prop := ∃ t, step s = .next t

/-! ## The host's duties -/

/-- Every byte of a list of addresses of a space has been written. -/
def State.written (s : State) (sp : Space) (as : List Nat) : Bool := as.all fun a => (s.byte sp a).isSome

/-- The line of rule R252 for a command, as a premise: what it needs that the hardware does not check. -/
def duty (s : State) : Instr → Bool
  | .mac _ _ | .macrd => s.accWritten
  | .sphlut _ | .shdlut _ | .raydir _ _ | .setview _ => s.initDone
  | .gndrow _ | .isect _ _ | .shade _ _ | .rendrow _ | .rendline _ => s.initDone && s.viewValid
  | .uprow tr => s.written .rowbuf ((uprowMoves s.cfg tr).map Prod.snd)
  | .upline y => s.written .rowbuf ((uplineMoves s.cfg y).map Prod.snd)
  | .storerow _ tr => s.written .rowbuf ((storerowMoves s.cfg tr).map Prod.snd)
  | .loadscene v => s.written (.cache v) ((loadsceneMoves s.cfg).map Prod.snd)
  | .nop | .fxint _ | .fxtrunc _ | .fxmul _ _ | .macclr | .init | .dither _ _ _ _ | .tilepack _ => true

/-- The two states differ in unwritten state at most (rule R41): in tables before INIT, in per-view state before SETVIEW,
in ACC before MACCLR; and in the result registers, which no command reads. -/
def State.sameWritten (s s' : State) : Prop :=
  s' = { s with r0 := s'.r0, r1 := s'.r1, r2 := s'.r2, acc := s'.acc, tab := s'.tab, view := s'.view } ∧
  (s.accWritten = true → s'.acc = s.acc) ∧ (s.initDone = true → s'.tab = s.tab) ∧
  (s.viewValid = true → s'.view = s.view)

/-! ## Invariants -/

/-- Every listed address of a memory lies in its space. -/
def Memory.within (c : Config) (sp : Space) (m : Memory) : Bool := m.all fun p => sp.holds c p.1

/-- Every byte memory is canonical. -/
def State.memoriesCanonical (s : State) : Prop := ∀ sp, (s.mem sp).wf = true

/-- Every byte memory lists addresses of its space only (rules R38, R55, R56). -/
def State.memoriesWithin (s : State) : Prop := ∀ sp, (s.mem sp).within s.cfg sp = true

/-- Every table has the number of elements its rule gives it (rules R30 to R35). -/
def State.tablesSized (s : State) : Prop :=
  s.tab.dx.length = s.cfg.w ∧ s.tab.dx2.length = s.cfg.w ∧ s.tab.dy.length = s.cfg.h ∧ s.tab.dy2.length = s.cfg.h ∧
  s.tab.sphT.length = 64 ∧ s.tab.sphP2.length = 64 ∧ s.tab.shd.length = 128 ∧
  s.view.ghit.length = s.cfg.h ∧ s.view.gt.length = s.cfg.h ∧ s.view.gz.length = s.cfg.h ∧
  s.view.sdz2.length = s.cfg.h

/-- STATUS and ERRCODE hold what rules R21, R22 and R232 allow: reserved bits 0, a known code, a code exactly when ERR
is 1, and VIEW 1 only where a view is valid. -/
def State.flagsLegal (s : State) : Prop :=
  s.status.toNat < 32 ∧ s.errcode.toNat ≤ 2 ∧ (s.err = true ↔ s.errcode ≠ 0) ∧
  (s.viewId = .back → s.viewValid = true)

/-- A held command is one that waits for vblank, and it has passed its range check (rules R59, R233). -/
def State.heldLegal (s : State) : Prop := ∀ i, s.held = some i → waitsForVblank i = true ∧ inRange s.cfg i = true

/-- What is true of every state a run reaches. -/
def State.Inv (s : State) : Prop :=
  s.memoriesCanonical ∧ s.memoriesWithin ∧ s.tablesSized ∧ s.flagsLegal ∧ s.heldLegal

/-- INIT_DONE says that the global tables are those INIT builds (rules R21, R41, R125). -/
def State.globalsCurrent (s : State) : Prop := s.initDone = true → s.tab = (buildGlobals s.cfg).val

/-- The rows of the per-view tables agree with one another and with SZ, as SETVIEW leaves them whatever DY and DZ were: a
row with a ground hit has 0 < GT ≤ GND_T_MAX and SDZ2 the square of GZ − SZ, a row without has zeros (rules R35, R133,
R134). -/
def ViewTables.rowsConsistent (c : Config) (v : ViewTables) : Prop :=
  ∀ y, y < c.h →
    if v.ghit.getD y false = true then
      0 < (v.gt.getD y 0).toInt ∧ (v.gt.getD y 0).toInt ≤ (c.gndTMax : Int) ∧
      (v.sdz2.getD y 0).toInt = (v.gz.getD y 0 - v.sz).toInt ^ 2 / 256
    else v.gt.getD y 0 = 0 ∧ v.gz.getD y 0 = 0 ∧ v.sdz2.getD y 0 = 0

/-- VIEW_VALID says that the whole per-view state is one that SETVIEW builds for the view in STATUS.VIEW, from the DY and
DZ it found: the light and the shadow centre are the view's, and the rows of the ground table are consistent (rules R21,
R34, R35, R41). -/
def State.viewCurrent (s : State) : Prop :=
  s.viewValid = true →
    s.view.light = (buildView s.cfg s.tab s.viewId).val.light ∧
    s.view.sx = (buildView s.cfg s.tab s.viewId).val.sx ∧
    s.view.sz = (buildView s.cfg s.tab s.viewId).val.sz ∧
    s.view.rowsConsistent s.cfg ∧
    ∃ g : GlobalTables, s.view = (buildView s.cfg g s.viewId).val

end Sys2Proof.Machine
end

