-- ==== Sys2Proof/Certificates/Slice0/Obligations.lean ====
section
/-! DEFINITION. The statements for the provers, each with the rule of spec/ it formalises. A statement says what a
command answers in integer arithmetic of its own (`/` on `Int` is the floor for a positive divisor), not through the
model's helper functions, wherever the rule gives a formula. -/

open Sys2Proof Sys2Proof.Machine

/-- The integer fits an i16: narrowing it raises no overflow (rule R91). -/
abbrev fits16 (v : Int) : Prop := -32768 ≤ v ∧ v ≤ 32767

/-- The integer fits an i32: wrapping it raises no overflow (rule R92). -/
abbrev fits32 (v : Int) : Prop := -2147483648 ≤ v ∧ v ≤ 2147483647

/-! ## Encoding and decoding -/

/-- Rules R70 to R74, R78: decoding the encoding of any command whose operands fit their fields gives it back. -/
def Obligations.DecodeOfEncodeIsIdentity : Prop :=
  ∀ i : Instr, i.wellFormed = true → decode (encode i) = .ok i

/-- Rules R70 to R74, R78: a word that decodes is the encoding of the command it decodes to, so no bit of a legal word
is dropped and no two words are one command. -/
def Obligations.EncodeOfDecodeIsIdentity : Prop :=
  ∀ (cw : CmdWord) (i : Instr), decode cw = .ok i → i.wellFormed = true ∧ encode i = cw

/-- Rule R78's example words decode to the commands it prints. -/
def Obligations.ExampleWordsDecode : Prop :=
  decode 0x0301800200 = .ok (.fxmul 384 512) ∧ decode 0x03FF8002DC = .ok (.fxmul (-128) 732) ∧
  decode 0x1200000120 = .ok (.sphlut 288) ∧ decode 0x13FFFFFFFF = .ok (.shdlut (-1)) ∧
  decode 0x1100000001 = .ok (.setview .back) ∧ decode 0x3000000007 = .ok (.rendrow 7) ∧
  decode 0x3400010007 = .ok (.storerow .back 7) ∧ decode 0x2100200020 = .ok (.shade 32 32) ∧
  decode 0x2200810002 = .ok (.dither 129 false true .sphere) ∧
  decode 0x2200810007 = .ok (.dither 129 true true .ground) ∧ decode 0x231B1B0000 = .ok (.tilepack 0x1B1B)

/-- The opcode map of rule R73 with the masks of rule R71: opcode, mask. -/
def opcodeRows : List (BitVec 8 × CmdWord) :=
  [(0x00, 0xFFFFFFFFFF), (0x01, 0xFF0000FFFF), (0x02, 0xFF0000FFFF), (0x03, 0xFF00000000), (0x04, 0xFFFFFFFFFF),
   (0x05, 0xFF00000000), (0x06, 0xFFFFFFFFFF), (0x10, 0xFFFFFFFFFF), (0x11, 0xFFFFFFFFFE), (0x12, 0xFF00000000),
   (0x13, 0xFF00000000), (0x14, 0xFFFF00FF00), (0x15, 0xFFFFFFFF00), (0x20, 0xFFFF00FF00), (0x21, 0xFFFF00FF00),
   (0x22, 0xFFFF00FFF8), (0x23, 0xFF0000FFFF), (0x30, 0xFFFFFFFF00), (0x31, 0xFFFFFFFF00), (0x32, 0xFFFFFFFF00),
   (0x33, 0xFFFFFFFF00), (0x34, 0xFFFFFEFF00), (0x35, 0xFFFFFFFFFE)]

/-- Rules R71, R74, R76: a word is rejected for its opcode exactly where no row has it, for a reserved bit exactly where
its row's mask test fails, and decodes otherwise. -/
def Obligations.DecodeRejectsExactlyIllegalWords : Prop :=
  ∀ cw : CmdWord,
    (decode cw = .error .reservedOpcode ↔ ∀ r ∈ opcodeRows, cw.extractLsb' 32 8 ≠ r.1) ∧
    (decode cw = .error .reservedBit ↔
      ∃ r ∈ opcodeRows, cw.extractLsb' 32 8 = r.1 ∧ cw &&& r.2 ≠ r.1.setWidth 40 <<< 32) ∧
    ((∃ i, decode cw = .ok i) ↔ ∃ r ∈ opcodeRows, cw &&& r.2 = r.1.setWidth 40 <<< 32)

/-! ## The step -/

/-- Rule R260: with no command held, a word that decodes is run as its command, in the state whose vblank level is the
next sample and from which the word has been taken. -/
def Obligations.StepRunsTheDecodedCommand : Prop :=
  ∀ (s : State) (cw : CmdWord) (es : List HostEvent) (i : Instr),
    s.held = none → s.events = .command cw :: es → decode cw = .ok i →
    step s =
      exec i { s with vblank := s.vblankNext.headD s.vblank, vblankNext := s.vblankNext.tail, events := es }

/-- Rules R74, R232: an illegal word sets ERR and, where it is the first error, ERRCODE to 1; it has no other
effect. -/
def Obligations.IllegalWordHasOnlyErrorOne : Prop :=
  ∀ (s : State) (cw : CmdWord) (es : List HostEvent) (e : DecodeError),
    s.held = none → s.events = .command cw :: es → decode cw = .error e →
    step s = .next { s with
      vblank := s.vblankNext.headD s.vblank, vblankNext := s.vblankNext.tail, events := es
      status := s.status ||| 0x0010
      errcode := if s.status.getLsbD 4 then s.errcode else 1 }

/-- Rules R59, R236: a held copy command changes nothing while vblank is 0 and is carried out by the first step that
finds vblank 1. That a held command whose host asserts no reset is what a step goes on with is log entry 7. -/
def Obligations.HeldCommandWaitsThenRuns : Prop :=
  ∀ (s : State) (i : Instr), s.held = some i → waitsForVblank i = true → inRange s.cfg i = true →
    s.events.head? ≠ some .reset →
    (s.vblankNext.headD s.vblank = false →
      step s = .next { s with vblank := false, vblankNext := s.vblankNext.tail }) ∧
    (s.vblankNext.headD s.vblank = true →
      step s = exec i { s with vblank := true, vblankNext := s.vblankNext.tail, held := none })

/-- Rules R40, R250, R251: after reset STATUS and ERRCODE are 0; the host's reset makes them so, leaves RTCORE idle and
does not touch DISP, the configuration or what the host presents next. -/
def Obligations.ResetClearsFlagsKeepsDisplay : Prop :=
  (∀ c : Config, (State.resetOf c).status = 0 ∧ (State.resetOf c).errcode = 0) ∧
  (∀ (s : State) (es : List HostEvent), s.events = .reset :: es →
    ∃ t, step s = .next t ∧ t.status = 0 ∧ t.errcode = 0 ∧ t.held = none ∧ t.disp = s.disp ∧ t.cfg = s.cfg ∧
      t.events = es)

/-- Rules R56, R230, R234: whatever the state, a step answers a next state; RTCORE has no trap and no command forms an
address outside its space. In states no run reaches it also rests on two choices of the model: that a memory access
outside a byte space is the fault noSuchByte (log entry 12) and that a table read beyond its list is 0, no fault (log
entry 13). -/
def Obligations.EveryStepAnswersANextState : Prop := ∀ s : State, ∃ t, step s = .next t

/-! ## Errors and flags -/

/-- Rule R232: the first error wins ERRCODE, ERR is set, and nothing else changes. -/
def Obligations.FirstErrorWins : Prop :=
  ∀ (c : ErrorCode) (s : State),
    (s.err = false → s.raiseError c = { s with status := s.status ||| 0x0010, errcode := c.code }) ∧
    (s.err = true → s.raiseError c = s)

/-- Rules R75, R231: a command with an index outside its range has no effect but Error(2), before any wait. -/
def Obligations.RangeErrorHasNoOtherEffect : Prop :=
  ∀ (i : Instr) (s : State), inRange s.cfg i = false →
    exec i s = .next { s with
      status := s.status ||| 0x0010, errcode := if s.status.getLsbD 4 then s.errcode else 2 }

/-- Rules R21, R22, R232: no command clears INIT_DONE, VIEW_VALID, OVF or ERR, and once ERR is set no command changes
ERRCODE. -/
def Obligations.StickyFlagsStaySet : Prop :=
  ∀ (i : Instr) (s t : State), exec i s = .next t →
    (s.initDone = true → t.initDone = true) ∧ (s.viewValid = true → t.viewValid = true) ∧
    (s.ovf = true → t.ovf = true) ∧ (s.err = true → t.err = true ∧ t.errcode = s.errcode)

/-- Rule R21: no command reads STATUS (nor ERRCODE): from a state that differs in them alone, a command changes all
else in the same way. -/
def Obligations.NoCommandReadsStatus : Prop :=
  ∀ (i : Instr) (s t : State) (st ec : BitVec 16), exec i s = .next t →
    ∃ u, exec i { s with status := st, errcode := ec } = .next u ∧
      { u with status := t.status, errcode := t.errcode } = t

/-- Rules R28, R42: OVF is raised by the listed commands alone. -/
def Obligations.OvfRaisedOnlyByNarrowingCommands : Prop :=
  ∀ (i : Instr) (s t : State), exec i s = .next t → s.ovf = false → t.ovf = true →
    match i with
    | .fxint _ | .fxmul _ _ | .mac _ _ | .macrd | .init | .setview _ | .isect _ _ | .shade _ _ | .rendrow _
    | .rendline _ => True
    | .nop | .fxtrunc _ | .macclr | .sphlut _ | .shdlut _ | .raydir _ _ | .gndrow _ | .dither _ _ _ _
    | .tilepack _ | .uprow _ | .upline _ | .storerow _ _ | .loadscene _ => False

/-- Rule R25: the read port zero-extends 16-bit registers and reads numbers 6 and 7 as 0. -/
def Obligations.ReadPortNumbersRegisters : Prop :=
  ∀ s : State,
    (s.readPort 0).toNat = s.status.toNat ∧ (s.readPort 1).toNat = s.errcode.toNat ∧
    (s.readPort 2).toNat = s.r0.toNat ∧ (s.readPort 3).toNat = s.r1.toNat ∧ (s.readPort 4).toNat = s.r2.toNat ∧
    s.readPort 5 = s.acc ∧ s.readPort 6 = 0 ∧ s.readPort 7 = 0

/-! ## Which command writes which state -/

/-- Rules R24, R30 to R35, R42: only INIT writes the global tables and INIT_DONE; only SETVIEW the per-view state, VIEW and
VIEW_VALID; only MACCLR and MAC write ACC, and only MACCLR makes it written (rule R252; log entry 3). -/
def Obligations.TablesAndAccWrittenOnlyByTheirCommands : Prop :=
  ∀ (i : Instr) (s t : State), exec i s = .next t →
    (i ≠ .init → t.tab = s.tab ∧ t.initDone = s.initDone) ∧
    ((∀ v, i ≠ .setview v) → t.view = s.view ∧ t.viewId = s.viewId ∧ t.viewValid = s.viewValid) ∧
    (i ≠ .macclr → (∀ a b, i ≠ .mac a b) → t.acc = s.acc) ∧
    (i ≠ .macclr → t.accWritten = s.accWritten)

/-- Rules R23, R42: each command leaves the result registers its rule does not name unchanged. -/
def Obligations.ResultRegistersFrame : Prop :=
  ∀ (i : Instr) (s t : State), exec i s = .next t →
    match i with
    | .sphlut _ | .raydir _ _ | .gndrow _ | .isect _ _ | .shade _ _ => True
    | .shdlut _ | .tilepack _ => t.r2 = s.r2
    | .fxint _ | .fxtrunc _ | .fxmul _ _ | .macrd | .dither _ _ _ _ => t.r1 = s.r1 ∧ t.r2 = s.r2
    | .nop | .macclr | .mac _ _ | .init | .setview _ | .rendrow _ | .rendline _ | .uprow _ | .upline _
    | .storerow _ _ | .loadscene _ => t.r0 = s.r0 ∧ t.r1 = s.r1 ∧ t.r2 = s.r2

/-- Rules R36 to R38, R42: ROWBUF is written by RENDROW and RENDLINE alone, CACHE[v] by STOREROW v alone, DISP by UPROW,
UPLINE and LOADSCENE alone: every other byte reads as before. -/
def Obligations.ByteMemoriesWrittenOnlyByTheirCommands : Prop :=
  ∀ (i : Instr) (s t : State), exec i s = .next t →
    ((∀ tr, i ≠ .rendrow tr) → (∀ y, i ≠ .rendline y) → ∀ a, t.byte .rowbuf a = s.byte .rowbuf a) ∧
    (∀ v, (∀ tr, i ≠ .storerow v tr) → ∀ a, t.byte (.cache v) a = s.byte (.cache v) a) ∧
    (waitsForVblank i = false → ∀ a, t.byte .disp a = s.byte .disp a)

/-- Rules R38, R55, R63: every byte of DISP outside the NT·16 owned bytes stays as it is. -/
def Obligations.DisplayWrittenOnlyInOwnedBlock : Prop :=
  ∀ (i : Instr) (s t : State) (a : Nat), exec i s = .next t →
    (a < s.cfg.tileBase * 16 ∨ (s.cfg.tileBase + (s.cfg.w / 8) * (s.cfg.h / 8)) * 16 ≤ a) →
    t.byte .disp a = s.byte .disp a

/-- Rule R38: RTCORE never reads DISP: from a state that differs in DISP alone, a command changes all else in the same
way. -/
def Obligations.DisplayIsNeverRead : Prop :=
  ∀ (i : Instr) (s t : State) (d : Memory), exec i s = .next t →
    ∃ u, exec i { s with disp := d } = .next u ∧ { u with disp := t.disp } = t

/-- Rules R20, R251: no command writes the configuration or another input. -/
def Obligations.InputsAreNeverWritten : Prop :=
  ∀ (i : Instr) (s t : State), exec i s = .next t →
    t.cfg = s.cfg ∧ t.vblank = s.vblank ∧ t.vblankNext = s.vblankNext ∧ t.events = s.events

/-! ## Invariants -/

/-- The invariant holds after reset, under every configuration. -/
def Obligations.ResetHasTheInvariant : Prop := ∀ c : Config, (State.resetOf c).Inv

/-- Every step keeps the invariant: byte memories canonical and inside their spaces, tables of their sizes, reserved bits
of STATUS 0, ERRCODE a known code and non-zero exactly with ERR, VIEW only with VIEW_VALID, and a held command one that
waits and has passed its checks. -/
def Obligations.StepKeepsTheInvariant : Prop :=
  ∀ s t : State, s.Inv → step s = .next t → t.Inv

/-- Rules R21, R41, R125, R133 to R135: every step keeps what the flags promise: INIT_DONE that the global tables are
INIT's, VIEW_VALID that the whole per-view state is what SETVIEW builds for STATUS.VIEW from the DY and DZ it found, with
the view's light and shadow centre and with consistent rows. -/
def Obligations.StepKeepsTheTablesCurrent : Prop :=
  ∀ s t : State, s.globalsCurrent → s.viewCurrent → step s = .next t → t.globalsCurrent ∧ t.viewCurrent

/-! ## The fixed-point layer -/

/-- Rule R91: the low 16 bits, equal to the value where it fits; STATUS.OVF is set exactly where it does not (or was set
before), and delivering the result changes no other flag. -/
def Obligations.NarrowKeepsLowSixteenBits : Prop :=
  ∀ v : Int, ((narrow16 v).val.toNat : Int) = v % 65536 ∧
    (-32768 ≤ v → v ≤ 32767 → (narrow16 v).val.toInt = v) ∧
    ∀ (k : I16 → State → State) (s : State),
      s.commit (narrow16 v) k = k (narrow16 v).val
        { s with status := if v < -32768 ∨ 32767 < v then s.status ||| 0x0008 else s.status }

/-- Rule R95: floor(a·b / 256) narrowed, the flag exactly where that does not fit; where it fits the result is the
floor; value and flag depend on the product alone. -/
def Obligations.FixedMultiplyFloors : Prop :=
  ∀ a b : I16,
    fxMul a b = narrow16 (a.toInt * b.toInt / 256) ∧
    ((fxMul a b).ovf = true ↔ a.toInt * b.toInt / 256 < -32768 ∨ 32767 < a.toInt * b.toInt / 256) ∧
    ((fxMul a b).ovf = false →
      256 * (fxMul a b).val.toInt ≤ a.toInt * b.toInt ∧ a.toInt * b.toInt < 256 * (fxMul a b).val.toInt + 256) ∧
    ∀ c d : I16, a.toInt * b.toInt = c.toInt * d.toInt → fxMul a b = fxMul c d

/-- Rules R13, R99: `isqrt(n)` is the largest s with s·s ≤ n. -/
def Obligations.IsqrtIsFloorSquareRoot : Prop :=
  ∀ n : Nat, isqrt n * isqrt n ≤ n ∧ n < (isqrt n + 1) * (isqrt n + 1)

/-- Rule R107: the laws (a) to (f) of the arithmetic layer, on the commands that show them. -/
def Obligations.MultiplyAccumulateLaws : Prop :=
  (∀ (a b : I16) (s : State), ∃ t u, execAll [.macclr, .mac a b, .macrd] s = .next t ∧
    exec (.fxmul a b) s = .next u ∧ t.r0 = u.r0 ∧ t.status = u.status) ∧
  (∀ (a : I16) (s : State), exec (.fxmul a 256) s = .next { s with r0 := a } ∧
    exec (.fxmul a 0) s = .next { s with r0 := 0 }) ∧
  (∀ (n : I16) (s : State), -128 ≤ n.toInt → n.toInt ≤ 127 →
    ∃ t, exec (.fxint n) s = .next t ∧ exec (.fxtrunc t.r0) s = .next { s with r0 := n }) ∧
  (∀ (a b : I16) (s : State), exec (.fxmul a b) s = exec (.fxmul b a) s) ∧
  (∀ a b : I16, a ≠ 0x8000 →
    (a.toInt * b.toInt % 256 = 0 → (fxMul (-a) b).val = -(fxMul a b).val) ∧
    (a.toInt * b.toInt % 256 ≠ 0 → (fxMul (-a) b).val = -(fxMul a b).val - 1)) ∧
  (∀ (u v : Vec3) (s : State), ∃ t,
    execAll (Pseudo.expand s.cfg (.dot3 u.x v.x u.y v.y u.z v.z)) s = .next t ∧ t.r0 = (dot3 u v).val)

/-! ## The arithmetic commands -/

/-- Rule R100: NOP does nothing. -/
def Obligations.NopChangesNothing : Prop := ∀ s : State, exec .nop s = .next s

/-- Rules R93, R94, R101, R102: FXINT writes n·256 to R0, with OVF exactly outside −128..127; FXTRUNC writes floor(a /
256), from −128 to 127, to R0; each changes nothing else. -/
def Obligations.ConversionResults : Prop :=
  (∀ (sa : I16) (s : State), exec (.fxint sa) s = .next { s with
    r0 := BitVec.ofInt 16 (sa.toInt * 256)
    status := if -128 ≤ sa.toInt ∧ sa.toInt ≤ 127 then s.status else s.status ||| 0x0008 }) ∧
  (∀ (sa : I16) (s : State), exec (.fxtrunc sa) s = .next { s with r0 := BitVec.ofInt 16 (sa.toInt / 256) } ∧
    (BitVec.ofInt 16 (sa.toInt / 256)).toInt = sa.toInt / 256 ∧ -128 ≤ sa.toInt / 256 ∧ sa.toInt / 256 ≤ 127)

/-- Rules R95, R103: FXMUL writes floor(sa·sb / 256) to R0, with OVF exactly where it does not fit, and nothing
else. -/
def Obligations.FxmulResult : Prop :=
  ∀ (sa sb : I16) (s : State), exec (.fxmul sa sb) s = .next { s with
    r0 := BitVec.ofInt 16 (sa.toInt * sb.toInt / 256)
    status := if -32768 ≤ sa.toInt * sb.toInt / 256 ∧ sa.toInt * sb.toInt / 256 ≤ 32767 then s.status
      else s.status ||| 0x0008 }

/-- Rules R104, R105, R106: MACCLR clears ACC (and notes it written, log entry 3); MAC adds the exact product to ACC, with OVF exactly where the sum leaves 32
bits; MACRD writes floor(ACC / 256) to R0, with OVF exactly where it does not fit; each changes nothing else. -/
def Obligations.MacUnitResults : Prop :=
  (∀ s : State, exec .macclr s = .next { s with acc := 0, accWritten := true }) ∧
  (∀ (sa sb : I16) (s : State), exec (.mac sa sb) s = .next { s with
    acc := BitVec.ofInt 32 (s.acc.toInt + sa.toInt * sb.toInt)
    status :=
      if -2147483648 ≤ s.acc.toInt + sa.toInt * sb.toInt ∧ s.acc.toInt + sa.toInt * sb.toInt ≤ 2147483647 then s.status
      else s.status ||| 0x0008 }) ∧
  (∀ s : State, exec .macrd s = .next { s with
    r0 := BitVec.ofInt 16 (s.acc.toInt / 256)
    status := if -32768 ≤ s.acc.toInt / 256 ∧ s.acc.toInt / 256 ≤ 32767 then s.status else s.status ||| 0x0008 })

/-! ## The table commands -/

/-- Rules R120 to R124: INIT answers a next state that changes only the global tables, INIT_DONE and OVF; the tables hold
what the rules' formulas give; OVF is set exactly where RAY_DZ², oc.z, oc.z², oc.z·RAY_DZ or an entry of SPH_P2 or SPH_T
does not fit 16 bits (the constraints of rule R8 make every other narrowing fit). -/
def Obligations.InitBuildsTheGlobalTables : Prop :=
  ∀ s : State,
    let dz : Int := s.cfg.rayDz.toInt
    let ocz : Int := 1536 - s.cfg.cam.z.toInt
    let oz : Int := (BitVec.ofInt 16 ocz).toInt
    ∃ t, exec .init s = .next t ∧
    t = { s with tab := t.tab, status := s.status ||| 1 ||| (t.status &&& 8) } ∧
    t.initDone = true ∧
    t.tab.dz = s.cfg.rayDz ∧ t.tab.dz2 = BitVec.ofInt 16 (dz * dz / 256) ∧
    t.tab.dx.length = s.cfg.w ∧ t.tab.dx2.length = s.cfg.w ∧
    (∀ x, x < s.cfg.w →
      (t.tab.dx.getD x 0).toInt = ((x : Int) - s.cfg.w / 2) * s.cfg.dstep ∧
      (t.tab.dx2.getD x 0).toInt = (((x : Int) - s.cfg.w / 2) * s.cfg.dstep) ^ 2 / 256) ∧
    t.tab.dy.length = s.cfg.h ∧ t.tab.dy2.length = s.cfg.h ∧
    (∀ y, y < s.cfg.h →
      (t.tab.dy.getD y 0).toInt = (s.cfg.h / 2 - (y : Int)) * s.cfg.dstep ∧
      (t.tab.dy2.getD y 0).toInt = ((s.cfg.h / 2 - (y : Int)) * s.cfg.dstep) ^ 2 / 256) ∧
    t.tab.oc2 = BitVec.ofInt 16 (oz * oz / 256) ∧ t.tab.ocd = BitVec.ofInt 16 (oz * dz / 256) ∧ t.tab.r2c = 1024 ∧
    t.tab.sphT.length = 64 ∧ t.tab.sphP2.length = 64 ∧
    (∀ i : Nat, i < 64 →
      let dd : Int := s.cfg.sphMin + i * 2 ^ s.cfg.sphShift
      let disc : Int := t.tab.ocd.toInt ^ 2 - dd * (t.tab.oc2.toInt - 1024)
      t.tab.sphP2.getD i 0 = BitVec.ofInt 16 (t.tab.ocd.toInt ^ 2 / dd) ∧
      t.tab.sphT.getD i 0 =
        if disc < 0 then s.cfg.tMiss
        else BitVec.ofInt 16 ((t.tab.ocd.toInt - (Nat.sqrt disc.toNat : Int)) * 256 / dd)) ∧
    t.tab.shd.length = 128 ∧
    (∀ i : Nat, i < 128 →
      let d2 := i * 2 ^ s.cfg.shdShift
      (t.tab.shd.getD i 0).toNat =
        if d2 ≤ s.cfg.shdR2 / 4 then 0
        else if s.cfg.shdR2 ≤ d2 then 255
        else (d2 - s.cfg.shdR2 / 4) * 255 / (s.cfg.shdR2 - s.cfg.shdR2 / 4)) ∧
    (t.ovf = true ↔ s.ovf = true ∨ ¬ fits16 (dz * dz / 256) ∨ ¬ fits16 ocz ∨ ¬ fits16 (oz * oz / 256) ∨
      ¬ fits16 (oz * dz / 256) ∨
      ∃ i : Nat, i < 64 ∧
        let dd : Int := s.cfg.sphMin + i * 2 ^ s.cfg.sphShift
        let disc : Int := t.tab.ocd.toInt ^ 2 - dd * (t.tab.oc2.toInt - 1024)
        ¬ fits16 (t.tab.ocd.toInt ^ 2 / dd) ∨
        (0 ≤ disc ∧ ¬ fits16 ((t.tab.ocd.toInt - (Nat.sqrt disc.toNat : Int)) * 256 / dd)))

/-- Rule R125: INIT may be issued again: a second INIT changes nothing; INIT depends on the configuration alone, so two
states of one configuration have the same global tables after it; it touches no per-view state and does not clear
VIEW_VALID. -/
def Obligations.InitIsIdempotent : Prop :=
  ∀ s s' : State, s.cfg = s'.cfg →
    ∃ t t', exec .init s = .next t ∧ exec .init s' = .next t' ∧ t.tab = t'.tab ∧ exec .init t = .next t ∧
      t.view = s.view ∧ t.viewValid = s.viewValid

/-- Rules R130 to R134: SETVIEW answers a next state that changes only the per-view state, VIEW, VIEW_VALID and OVF; the
light and the shadow centre are the view's, each row of the ground table is what the rules' formulas give, and OVF is
set exactly where, on some row with a ground hit, GT·DZ / 256, CAM.z plus it, or GZ − SZ does not fit 16 bits. -/
def Obligations.SetviewBuildsTheViewState : Prop :=
  ∀ (v : ViewId) (s : State), ∃ t, exec (.setview v) s = .next t ∧
    t = { s with view := t.view, status := t.status } ∧
    t.status = (s.status &&& 0xFFFB) ||| (match v with | .front => 2 | .back => 6) ||| (t.status &&& 8) ∧
    (t.view.light, t.view.sx, t.view.sz) = (match v with
      | .front => ((⟨-128, 179, 128⟩ : Vec3), (366 : I16), (1170 : I16))
      | .back => ((⟨128, 179, -128⟩ : Vec3), (-366 : I16), (1902 : I16))) ∧
    t.view.ghit.length = s.cfg.h ∧ t.view.gt.length = s.cfg.h ∧ t.view.gz.length = s.cfg.h ∧
    t.view.sdz2.length = s.cfg.h ∧
    (∀ y, y < s.cfg.h →
      let dy : Int := (s.tab.dy.getD y 0).toInt
      if dy ≤ -(s.cfg.gndDyMin : Int) ∧ 0 < 131072 / -dy ∧ 131072 / -dy ≤ (s.cfg.gndTMax : Int) then
        t.view.ghit.getD y false = true ∧ (t.view.gt.getD y 0).toInt = 131072 / -dy ∧
        t.view.gz.getD y 0 = s.cfg.cam.z + BitVec.ofInt 16 (131072 / -dy * s.tab.dz.toInt / 256) ∧
        (t.view.sdz2.getD y 0).toInt = (t.view.gz.getD y 0 - t.view.sz).toInt ^ 2 / 256
      else
        t.view.ghit.getD y false = false ∧ t.view.gt.getD y 0 = 0 ∧ t.view.gz.getD y 0 = 0 ∧
        t.view.sdz2.getD y 0 = 0) ∧
    (t.ovf = true ↔ s.ovf = true ∨ ∃ y, y < s.cfg.h ∧ t.view.ghit.getD y false = true ∧
      let m : Int := (t.view.gt.getD y 0).toInt * s.tab.dz.toInt / 256
      ¬ fits16 m ∨ ¬ fits16 (s.cfg.cam.z.toInt + (BitVec.ofInt 16 m).toInt) ∨
      ¬ fits16 ((t.view.gz.getD y 0).toInt - t.view.sz.toInt))

/-- Rule R135: what SETVIEW v leaves in the per-view state is a function of v, the configuration and the global tables
only; hence SETVIEW v after any history of SETVIEWs gives the same per-view state as at once, and repeating it changes
nothing. -/
def Obligations.SetviewForgetsEarlierViews : Prop :=
  ∀ (v : ViewId) (s s' : State), s.cfg = s'.cfg → s.tab = s'.tab →
    ∃ t t', exec (.setview v) s = .next t ∧ exec (.setview v) s' = .next t' ∧ t.view = t'.view ∧
      exec (.setview v) t = .next t ∧
      ∀ us : List ViewId, ∃ u, execAll (us.map .setview ++ [.setview v]) s = .next u ∧ u.view = t.view

/-- Rules R141, R143: SPHLUT and SHDLUT complete on every operand, with the clamped index of rules R140 and R142, and
change only the result registers their rules name. -/
def Obligations.LookupResults : Prop :=
  ∀ (ab : I32) (s : State),
    (let i := (max 0 (min 63 ((ab.toInt - s.cfg.sphMin) / 2 ^ s.cfg.sphShift))).toNat
     exec (.sphlut ab) s =
       .next { s with r0 := s.tab.sphT.getD i 0, r1 := s.tab.sphP2.getD i 0, r2 := BitVec.ofNat 16 i }) ∧
    (let i := (max 0 (min 127 (ab.toInt / 2 ^ s.cfg.shdShift))).toNat
     exec (.shdlut ab) s =
       .next { s with r0 := (s.tab.shd.getD i 0).setWidth 16, r1 := BitVec.ofNat 16 i })

/-- Rules R33, R124, R143, R180 (d): after INIT the shadow brightness is non-decreasing in the squared distance, 0 at
distance² ≤ 0 and 255 at distance² ≥ SHD_R2. The last clause takes SHD_R2 to be positive and the low edge of a bucket, as
it is by default: a bucket is evaluated at its low edge (rule R124), where distance 0 lies in the umbra. -/
def Obligations.ShadowBrightnessIsMonotone : Prop :=
  ∀ (s t : State) (d d' : I32), exec .init s = .next t → d.toInt ≤ d'.toInt →
    ∃ u u', exec (.shdlut d) t = .next u ∧ exec (.shdlut d') t = .next u' ∧ u.r0.toNat ≤ u'.r0.toNat ∧
      (d.toInt ≤ 0 → u.r0 = 0) ∧
      (0 < s.cfg.shdR2 → s.cfg.shdR2 % 2 ^ s.cfg.shdShift = 0 → (s.cfg.shdR2 : Int) ≤ d.toInt → u.r0 = 255)

/-- Rules R144, R145: in range, RAYDIR and GNDROW read their tables into R0, R1, R2 and change nothing else. -/
def Obligations.TableReadResults : Prop :=
  (∀ (x y : Nat) (s : State), x < s.cfg.w → y < s.cfg.h → exec (.raydir x y) s =
    .next { s with r0 := s.tab.dx.getD x 0, r1 := s.tab.dy.getD y 0, r2 := s.tab.dz }) ∧
  (∀ (y : Nat) (s : State), y < s.cfg.h → exec (.gndrow y) s = .next { s with
    r0 := if s.view.ghit.getD y false then 1 else 0, r1 := s.view.gt.getD y 0, r2 := s.view.gz.getD y 0 })

/-! ## The pixel commands -/

/-- Rule R163: the sphere wins exactly where it is hit and strictly nearer (signed) or alone; a tie goes to the
ground; no hit is sky with t = 0; the kind codes are 0 sky, 1 sphere, 2 ground. -/
def Obligations.TieGoesToTheGround : Prop :=
  Kind.code .sky = 0 ∧ Kind.code .sphere = 1 ∧ Kind.code .ground = 2 ∧
  ∀ (sph gnd : Bool) (ts tg : I16),
    (selectHit sph ts gnd tg = (.sphere, ts) ↔ sph = true ∧ (gnd = false ∨ ts.toInt < tg.toInt)) ∧
    (selectHit sph ts gnd tg = (.ground, tg) ↔ gnd = true ∧ (sph = false ∨ tg.toInt ≤ ts.toInt)) ∧
    (selectHit sph ts gnd tg = (.sky, 0) ↔ sph = false ∧ gnd = false)

/-- Rules R160 to R166: in range, ISECT answers the kind, the parameter and the sphere LUT index that the tables give,
with OVF exactly where OC2 − SPH_P2[i] does not fit, and changes nothing else. -/
def Obligations.IsectResult : Prop :=
  ∀ (x y : Nat) (s : State), x < s.cfg.w → y < s.cfg.h →
    let dd : Int := (s.tab.dx2.getD x 0).toInt + (s.tab.dy2.getD y 0).toInt + s.tab.dz2.toInt
    let i := (max 0 (min 63 ((dd - s.cfg.sphMin) / 2 ^ s.cfg.sphShift))).toNat
    let diff : Int := s.tab.oc2.toInt - (s.tab.sphP2.getD i 0).toInt
    let ts := s.tab.sphT.getD i 0
    let tg := s.view.gt.getD y 0
    let sph := 0 < s.tab.ocd.toInt ∧ (BitVec.ofInt 16 diff).toInt ≤ s.tab.r2c.toInt
    let gnd := s.view.ghit.getD y false = true
    let status := if -32768 ≤ diff ∧ diff ≤ 32767 then s.status else s.status ||| 0x0008
    exec (.isect x y) s = .next (
      if sph ∧ (¬ gnd ∨ ts.toInt < tg.toInt) then
        { s with r0 := 1, r1 := ts, r2 := BitVec.ofNat 16 i, status := status }
      else if gnd then { s with r0 := 2, r1 := tg, r2 := BitVec.ofNat 16 i, status := status }
      else { s with r0 := 0, r1 := 0, r2 := BitVec.ofNat 16 i, status := status })

/-- Rules R164, R180 (b): what ISECT answers does not depend on the view. -/
def Obligations.GeometryDoesNotDependOnTheView : Prop :=
  ∀ (x y : Nat) (s : State), x < s.cfg.w → y < s.cfg.h →
    ∃ t0 t1 u0 u1, exec (.setview .front) s = .next t0 ∧ exec (.setview .back) s = .next t1 ∧
      exec (.isect x y) t0 = .next u0 ∧ exec (.isect x y) t1 = .next u1 ∧
      u0.r0 = u1.r0 ∧ u0.r1 = u1.r1 ∧ u0.r2 = u1.r2

/-- Rules R171 to R178: in range, SHADE answers what the surface that ISECT answers gives, and changes only R0, R1, R2 and
OVF: sky is colour 3 with brightness 0; a sphere pixel has a brightness from 50 to 255 (sphere_brightness at ISECT's hit
parameter), is index 1 where it is strictly above the pixel's threshold and 0 otherwise; a ground pixel has the shadow
table's brightness at its clamped index, and index 2 or 0. OVF is set exactly where ISECT sets it, where
sphere_brightness overflows on a sphere pixel (SphereBrightnessIsLambert says where), and where GT·DX / 256, CAM.x plus it
or minus SX does not fit 16 bits on a ground pixel. The first clauses say that shade(x, y), by which the RENDLINE and
RENDROW statements speak, is what SHADE answers. -/
def Obligations.ShadeResult : Prop :=
  ∀ (x y : Nat) (s : State), x < s.cfg.w → y < s.cfg.h →
    let pixel := shadePixel s.cfg s.tab s.view x y
    let threshold := if y % 2 = 0 then (if x % 2 = 0 then 0 else 128) else (if x % 2 = 0 then 192 else 64)
    ∃ u t, exec (.isect x y) s = .next u ∧ exec (.shade x y) s = .next t ∧
      t = { s with r0 := t.r0, r1 := t.r1, r2 := t.r2, status := s.status ||| (t.status &&& 8) } ∧
      t.r0 = pixel.val.colour.setWidth 16 ∧ t.ovf = (s.ovf || pixel.ovf) ∧
      t.r2 = u.r0 ∧ (u.r0 = 0 ∨ u.r0 = 1 ∨ u.r0 = 2) ∧
      (u.r0 = 0 → t.r0 = 3 ∧ t.r1 = 0 ∧ t.ovf = u.ovf) ∧
      (u.r0 = 1 →
        let bright := sphereBrightness s.cfg s.tab s.view x y u.r1
        50 ≤ t.r1.toNat ∧ t.r1.toNat ≤ 255 ∧ t.r1 = bright.val.setWidth 16 ∧
        t.r0 = (if threshold < t.r1.toNat then 1 else 0) ∧ t.ovf = (u.ovf || bright.ovf)) ∧
      (u.r0 = 2 →
        let m : Int := (s.view.gt.getD y 0).toInt * (s.tab.dx.getD x 0).toInt / 256
        let gx := s.cfg.cam.x + BitVec.ofInt 16 m
        let d2 : Int := (gx - s.view.sx).toInt ^ 2 / 256 + (s.view.sdz2.getD y 0).toInt
        let i := (max 0 (min 127 (d2 / 2 ^ s.cfg.shdShift))).toNat
        t.r1 = (s.tab.shd.getD i 0).setWidth 16 ∧
        t.r0 = (if threshold < t.r1.toNat then 2 else 0) ∧
        (t.ovf = true ↔ u.ovf = true ∨ ¬ fits16 m ∨
          ¬ fits16 (s.cfg.cam.x.toInt + (BitVec.ofInt 16 m).toInt) ∨ ¬ fits16 (gx.toInt - s.view.sx.toInt)))

/-- Rules R97, R170 to R172: a sphere pixel's brightness is AMBIENT plus floor(n·l·DIFF_SCALE / 256) where n·l > 0,
AMBIENT otherwise, capped at 255; n is half of hit minus centre per component, n·l one shift of the sum of products. It
overflows exactly where, for some component, t·d / 256, CAM plus it, or that minus the centre does not fit 16 bits, where
a partial sum of products does not fit 32 bits, or where n·l does not fit 16. -/
def Obligations.SphereBrightnessIsLambert : Prop :=
  ∀ (c : Config) (g : GlobalTables) (v : ViewTables) (x y : Nat) (tt : I16),
    let n := fun (cam d centre : I16) =>
      BitVec.ofInt 16 ((cam + BitVec.ofInt 16 (tt.toInt * d.toInt / 256) - centre).toInt / 2)
    let nx := n c.cam.x (g.dx.getD x 0) 0
    let ny := n c.cam.y (g.dy.getD y 0) 512
    let nz := n c.cam.z g.dz 1536
    let sum := (BitVec.ofInt 32
      (nx.toInt * v.light.x.toInt + ny.toInt * v.light.y.toInt + nz.toInt * v.light.z.toInt)).toInt
    let ndl := (BitVec.ofInt 16 (sum / 256)).toInt
    let overflows := fun (cam d centre : I16) =>
      let m : Int := tt.toInt * d.toInt / 256
      let p : Int := cam.toInt + (BitVec.ofInt 16 m).toInt
      ¬ fits16 m ∨ ¬ fits16 p ∨ ¬ fits16 ((BitVec.ofInt 16 p).toInt - centre.toInt)
    ((sphereBrightness c g v x y tt).val.toNat : Int) =
      (if 0 < ndl then min 255 (50 + ndl * c.diffScale / 256) else 50) ∧
    ((sphereBrightness c g v x y tt).ovf = true ↔
      overflows c.cam.x (g.dx.getD x 0) 0 ∨ overflows c.cam.y (g.dy.getD y 0) 512 ∨ overflows c.cam.z g.dz 1536 ∨
      ¬ fits32 (nx.toInt * v.light.x.toInt) ∨
      ¬ fits32 (nx.toInt * v.light.x.toInt + ny.toInt * v.light.y.toInt) ∨
      ¬ fits32 (nx.toInt * v.light.x.toInt + ny.toInt * v.light.y.toInt + nz.toInt * v.light.z.toInt) ∨
      ¬ fits16 (sum / 256))

/-- Rules R177, R178, R180 (a): SHADE is a function of (x, y), the configuration, the global tables and the per-view
state: in range it completes in any two states that agree in those, with the same colour, brightness and surface;
repeating SHADE changes nothing, in range or not. -/
def Obligations.ShadeIsPure : Prop :=
  (∀ (x y : Nat) (s s' : State), x < s.cfg.w → y < s.cfg.h →
    s'.cfg = s.cfg → s'.tab = s.tab → s'.view = s.view →
    ∃ t t', exec (.shade x y) s = .next t ∧ exec (.shade x y) s' = .next t' ∧
      t'.r0 = t.r0 ∧ t'.r1 = t.r1 ∧ t'.r2 = t.r2) ∧
  (∀ (x y : Nat) (s t : State), exec (.shade x y) s = .next t → exec (.shade x y) t = .next t)

/-- Rules R174, R175, R179: DITHER writes the lit index of the surface where the brightness is strictly above the
threshold {{0,128},{192,64}}[yp][xp], the dark index 0 otherwise, and changes nothing else. -/
def Obligations.DitherResult : Prop :=
  ∀ (bright : Byte) (xp yp : Bool) (surf : Surface) (s : State),
    exec (.dither bright xp yp surf) s = .next { s with
      r0 :=
        if (match yp, xp with
            | false, false => 0
            | false, true => 128
            | true, false => 192
            | true, true => 64) < bright.toNat
        then (match surf with | .sphere => 1 | .ground => 2) else 0 }

/-- Rules R200, R201: TILEPACK puts bit 0 of pixel c in bit 7 − c of R0 and bit 1 in bit 7 − c of R1, high bytes 0, and
changes nothing else; pixel c is bits 15 − 2c and 14 − 2c of the operand. -/
def Obligations.TilepackResult : Prop :=
  ∀ (px : I16) (s : State), ∃ lo hi : BitVec 16,
    exec (.tilepack px) s = .next { s with r0 := lo, r1 := hi } ∧ lo.toNat < 256 ∧ hi.toNat < 256 ∧
    ∀ c, c < 8 → lo.getLsbD (7 - c) = px.getLsbD (14 - 2 * c) ∧ hi.getLsbD (7 - c) = px.getLsbD (15 - 2 * c)

/-! ## The raster and cache commands -/

/-- Rules R200, R202, R204: in range, RENDLINE writes the two plane bytes of pixel row y mod 8 of every tile column, bit
7 − k from pixel (8·tc + k, y), sets OVF exactly where shading some pixel of the line overflows, and changes nothing
else; every other byte of ROWBUF reads as before. -/
def Obligations.RendlineResult : Prop :=
  ∀ (y : Nat) (s : State), y < s.cfg.h →
    ∃ t, exec (.rendline y) s = .next t ∧
      t = { s with rowbuf := t.rowbuf, status := t.status } ∧
      t.status = s.status |||
        (if (List.range s.cfg.w).any fun x => (shadePixel s.cfg s.tab s.view x y).ovf then 8 else 0) ∧
      (∀ tc, tc < s.cfg.w / 8 → ∃ lo hi : Byte,
        t.byte .rowbuf (tc * 16 + 2 * (y % 8)) = some lo ∧ t.byte .rowbuf (tc * 16 + 2 * (y % 8) + 1) = some hi ∧
        ∀ k, k < 8 →
          lo.getLsbD (7 - k) = (shadePixel s.cfg s.tab s.view (tc * 8 + k) y).val.colour.getLsbD 0 ∧
          hi.getLsbD (7 - k) = (shadePixel s.cfg s.tab s.view (tc * 8 + k) y).val.colour.getLsbD 1) ∧
      (∀ a, (∀ tc, tc < s.cfg.w / 8 → a ≠ tc * 16 + 2 * (y % 8) ∧ a ≠ tc * 16 + 2 * (y % 8) + 1) →
        t.byte .rowbuf a = s.byte .rowbuf a)

/-- Rules R200, R202, R203: in range, RENDROW writes all TW·16 bytes of ROWBUF, pixel row r from scanline 8·tr + r, sets
OVF exactly where shading some pixel of the tile row overflows, and changes nothing else. -/
def Obligations.RendrowResult : Prop :=
  ∀ (tr : Nat) (s : State), tr < s.cfg.h / 8 →
    ∃ t, exec (.rendrow tr) s = .next t ∧
      t = { s with rowbuf := t.rowbuf, status := t.status } ∧
      t.status = s.status |||
        (if (List.range 8).any fun r => (List.range s.cfg.w).any fun x =>
          (shadePixel s.cfg s.tab s.view x (tr * 8 + r)).ovf then 8 else 0) ∧
      (∀ tc r, tc < s.cfg.w / 8 → r < 8 → ∃ lo hi : Byte,
        t.byte .rowbuf (tc * 16 + 2 * r) = some lo ∧ t.byte .rowbuf (tc * 16 + 2 * r + 1) = some hi ∧
        ∀ k, k < 8 →
          lo.getLsbD (7 - k) = (shadePixel s.cfg s.tab s.view (tc * 8 + k) (tr * 8 + r)).val.colour.getLsbD 0 ∧
          hi.getLsbD (7 - k) = (shadePixel s.cfg s.tab s.view (tc * 8 + k) (tr * 8 + r)).val.colour.getLsbD 1) ∧
      (∀ a, s.cfg.w / 8 * 16 ≤ a → t.byte .rowbuf a = s.byte .rowbuf a)

/-- Rule R204: the eight RENDLINE of a tile row, in any order, leave ROWBUF exactly as RENDROW does, with the same
STATUS. -/
def Obligations.EightRendlinesEqualRendrow : Prop :=
  ∀ (tr : Nat) (ys : List Nat) (s : State), tr < s.cfg.h / 8 →
    ys.Perm ((List.range 8).map fun r => tr * 8 + r) →
    ∃ t u, exec (.rendrow tr) s = .next t ∧ execAll (ys.map .rendline) s = .next u ∧
      (∀ a, u.byte .rowbuf a = t.byte .rowbuf a) ∧ u.status = t.status

/-- Rule R205: in range and with vblank 1, UPROW copies every byte of ROWBUF to its place in tile row tr of the owned
block, an unwritten byte as an unwritten byte (log entry 4), and changes nothing else. -/
def Obligations.UprowResult : Prop :=
  ∀ (tr : Nat) (s : State), tr < s.cfg.h / 8 → s.vblank = true → s.disp.wf = true →
    ∃ t, exec (.uprow tr) s = .next t ∧ t = { s with disp := t.disp } ∧
      (∀ tc k, tc < s.cfg.w / 8 → k < 16 →
        t.byte .disp ((s.cfg.tileBase + (tr * (s.cfg.w / 8) + tc)) * 16 + k) = s.byte .rowbuf (tc * 16 + k)) ∧
      (∀ a, (∀ tc k, tc < s.cfg.w / 8 → k < 16 →
          a ≠ (s.cfg.tileBase + (tr * (s.cfg.w / 8) + tc)) * 16 + k) → t.byte .disp a = s.byte .disp a)

/-- Rule R206: in range and with vblank 1, UPLINE copies the two bytes of pixel row y mod 8 of every tile of ROWBUF to
tile row y / 8 of the owned block, and changes nothing else. -/
def Obligations.UplineResult : Prop :=
  ∀ (y : Nat) (s : State), y < s.cfg.h → s.vblank = true → s.disp.wf = true →
    ∃ t, exec (.upline y) s = .next t ∧ t = { s with disp := t.disp } ∧
      (∀ tc p, tc < s.cfg.w / 8 → p < 2 →
        t.byte .disp ((s.cfg.tileBase + (y / 8 * (s.cfg.w / 8) + tc)) * 16 + (2 * (y % 8) + p)) =
          s.byte .rowbuf (tc * 16 + (2 * (y % 8) + p))) ∧
      (∀ a, (∀ tc p, tc < s.cfg.w / 8 → p < 2 →
          a ≠ (s.cfg.tileBase + (y / 8 * (s.cfg.w / 8) + tc)) * 16 + (2 * (y % 8) + p)) →
        t.byte .disp a = s.byte .disp a)

/-- Rule R207: in range, whatever vblank is, STOREROW copies ROWBUF to tile row tr of CACHE[v] and changes nothing
else. -/
def Obligations.StorerowResult : Prop :=
  ∀ (v : ViewId) (tr : Nat) (s : State), tr < s.cfg.h / 8 → (s.mem (.cache v)).wf = true →
    ∃ t, exec (.storerow v tr) s = .next t ∧
      (match v with
        | .front => t = { s with cache0 := t.cache0 }
        | .back => t = { s with cache1 := t.cache1 }) ∧
      (∀ j, j < s.cfg.w / 8 * 16 →
        t.byte (.cache v) (tr * (s.cfg.w / 8) * 16 + j) = s.byte .rowbuf j) ∧
      (∀ a, (∀ j, j < s.cfg.w / 8 * 16 → a ≠ tr * (s.cfg.w / 8) * 16 + j) →
        t.byte (.cache v) a = s.byte (.cache v) a)

/-- Rule R208: with vblank 1, LOADSCENE copies all NT·16 bytes of CACHE[v] to the owned block and changes nothing else:
not STATUS.VIEW, not the per-view state, not ROWBUF. -/
def Obligations.LoadsceneResult : Prop :=
  ∀ (v : ViewId) (s : State), s.vblank = true → s.disp.wf = true →
    ∃ t, exec (.loadscene v) s = .next t ∧ t = { s with disp := t.disp } ∧
      (∀ n k, n < s.cfg.w / 8 * (s.cfg.h / 8) → k < 16 →
        t.byte .disp ((s.cfg.tileBase + n) * 16 + k) = s.byte (.cache v) (n * 16 + k)) ∧
      (∀ a, (∀ n k, n < s.cfg.w / 8 * (s.cfg.h / 8) → k < 16 → a ≠ (s.cfg.tileBase + n) * 16 + k) →
        t.byte .disp a = s.byte .disp a)

/-- Rules R59, R236: with vblank 0, an in-range copy command is held and nothing else happens; every other command does
the same whatever vblank is. -/
def Obligations.OnlyCopyCommandsWaitForVblank : Prop :=
  (∀ (i : Instr) (s : State), waitsForVblank i = true → inRange s.cfg i = true → s.vblank = false →
    exec i s = .next { s with held := some i }) ∧
  (∀ (i : Instr) (s t : State) (b : Bool), waitsForVblank i = false → exec i s = .next t →
    exec i { s with vblank := b } = .next { t with vblank := b })

/-- Rule R209 (a): after RENDROW tr and STOREROW v, tr, LOADSCENE v gives tile row tr of DISP the bytes that UPROW tr
straight after that RENDROW gives it. -/
def Obligations.CacheRoundTrip : Prop :=
  ∀ (v : ViewId) (tr : Nat) (s : State), tr < s.cfg.h / 8 → s.vblank = true → s.disp.wf = true →
    (s.mem (.cache v)).wf = true →
    ∃ t u, execAll [.rendrow tr, .storerow v tr, .loadscene v] s = .next t ∧
      execAll [.rendrow tr, .uprow tr] s = .next u ∧
      ∀ j, j < s.cfg.w / 8 * 16 →
        t.byte .disp ((s.cfg.tileBase + tr * (s.cfg.w / 8)) * 16 + j) =
          u.byte .disp ((s.cfg.tileBase + tr * (s.cfg.w / 8)) * 16 + j)

/-- Rules R79, R209 (b): with vblank 1, PRERENDER v and PRERENDERL v leave the same CACHE[v] and the same DISP. -/
def Obligations.PrerenderPathsAgree : Prop :=
  ∀ (v : ViewId) (s : State), s.vblank = true → s.Inv →
    ∃ t u, execAll (Pseudo.expand s.cfg (.prerender v)) s = .next t ∧
      execAll (Pseudo.expand s.cfg (.prerenderl v)) s = .next u ∧
      (∀ a, t.byte (.cache v) a = u.byte (.cache v) a) ∧ (∀ a, t.byte .disp a = u.byte .disp a)

/-! ## The default configuration -/

/-- Rules R28, R120, R130: with the default configuration INIT, and SETVIEW after it, never set OVF. -/
def Obligations.DefaultTablesNeverOverflow : Prop :=
  ∀ s t : State, s.cfg = Config.default → exec .init s = .next t →
    t.ovf = s.ovf ∧ ∀ v, ∃ u, exec (.setview v) t = .next u ∧ u.ovf = s.ovf

/-- Rule R28: with the default configuration, INIT and SETVIEW done, no ISECT, SHADE, RENDLINE or RENDROW of either view
sets OVF. -/
def Obligations.DefaultPixelsNeverOverflow : Prop :=
  ∀ (s t u : State) (v : ViewId) (x y : Nat), s.cfg = Config.default → exec .init s = .next t →
    exec (.setview v) t = .next u → x < 64 → y < 64 →
    (∃ w, exec (.shade x y) u = .next w ∧ w.ovf = u.ovf) ∧ (∃ w, exec (.isect x y) u = .next w ∧ w.ovf = u.ovf) ∧
    (∃ w, exec (.rendline y) u = .next w ∧ w.ovf = u.ovf) ∧ (∃ w, exec (.rendrow (y / 8)) u = .next w ∧ w.ovf = u.ovf)

/-! ## The host's premises -/

/-- Rules R41, R252: the premise of a command's line is enough: from two states that differ in unwritten state alone, a
command whose premise holds answers states that differ in unwritten state alone, and any result register it changes
holds the same value in both. -/
def Obligations.PremisedCommandsReadNoUnwrittenState : Prop :=
  ∀ (i : Instr) (s s' t : State), duty s i = true → s.sameWritten s' → exec i s = .next t →
    ∃ t', exec i s' = .next t' ∧ t.sameWritten t' ∧
      (t'.r0 = t.r0 ∨ t.r0 = s.r0 ∧ t'.r0 = s'.r0) ∧ (t'.r1 = t.r1 ∨ t.r1 = s.r1 ∧ t'.r1 = s'.r1) ∧
      (t'.r2 = t.r2 ∨ t.r2 = s.r2 ∧ t'.r2 = s'.r2)
end

