-- ==== Sys2Proof/Laws/Config.lean ====
section
/-! SUPPORT. What the constraints of rule R8 give, each once. -/

namespace Sys2Proof

/-- What an accepted window gives: positive multiples of 8, at most 256. -/
theorem Config.window (c : Config) :
    c.w % 8 = 0 ∧ 8 ≤ c.w ∧ c.w ≤ 256 ∧ c.h % 8 = 0 ∧ 8 ≤ c.h ∧ c.h ≤ 256 := by
  have h := c.ok
  simp only [Params.accepted, Params.windowOk, Bool.and_eq_true, decide_eq_true_eq] at h
  exact h.1.1.1.1

/-- What an accepted ray table gives (rule R8). -/
theorem Config.ray (c : Config) :
    1 ≤ c.dstep ∧ (max c.w c.h / 2) * c.dstep ≤ 2896 ∧ 0 < c.rayDz.toInt := by
  have h := c.ok
  simp only [Params.accepted, Params.rayOk, Bool.and_eq_true, decide_eq_true_eq] at h
  exact h.1.1.1.2

/-- What an accepted camera gives (rules R8, R10, R122). -/
theorem Config.camera (c : Config) :
    c.cam.x = sphC.x ∧ c.cam.y = sphC.y ∧ 0 ≤ c.ocz ∧ sphR.toInt * sphR.toInt ≤ c.ocz * c.ocz ∧
      0 ≤ c.toParams.ocd ∧ sphR.toInt * sphR.toInt / 256 ≤ c.toParams.oc2 := by
  have h := c.ok
  simp only [Params.accepted, Params.cameraOk, Bool.and_eq_true, decide_eq_true_eq] at h
  exact h.1.1.2

/-- What accepted lookup tables give (rule R8). -/
theorem Config.lut (c : Config) :
    1 ≤ c.sphMin ∧ c.sphShift ≤ 15 ∧ c.shdR2 % 4 = 0 ∧ c.shdR2 < shdN * 2 ^ c.shdShift := by
  have h := c.ok
  simp only [Params.accepted, Params.lutOk, Bool.and_eq_true, decide_eq_true_eq] at h
  exact h.1.2

/-- What an accepted shader gives (rule R8); the normal's shift is 1. -/
theorem Config.shading (c : Config) :
    1 ≤ c.gndDyMin ∧ c.gndTMax ≤ 32767 ∧ c.nrmShift = 1 ∧ c.diffScale ≤ 205 := by
  have h := c.ok
  simp only [Params.accepted, Params.shadeOk, Bool.and_eq_true, decide_eq_true_eq] at h
  obtain ⟨-, h1, h2, h3, h4⟩ := h
  refine ⟨h1, h2, ?_, by simp only [ambient] at h4; omega⟩
  have h5 : sphR.toInt = 512 := by decide
  rw [h5] at h3
  have h6 : 2 ^ c.nrmShift = 2 ^ 1 := by
    have : 2 ^ c.nrmShift * 256 = 512 := by exact_mod_cast h3
    omega
  exact Nat.pow_right_injective (le_refl 2) h6

theorem Config.w_eq (c : Config) : c.w = c.tw * 8 := by
  have := c.window
  simp only [Config.tw]
  omega

theorem Config.h_eq (c : Config) : c.h = c.th * 8 := by
  have := c.window
  simp only [Config.th]
  omega

end Sys2Proof
end

