-- ==== Sys2Proof/Laws/Encoding.lean ====
section
/-! SUPPORT. The encoding tables: opcodes and bytes correspond, and the fields of an encoded word are the encoder's. -/

namespace Sys2Proof

/-- The opcode byte of a command selects the command (rule R73). -/
@[simp] theorem opOfCode_code (o : Op) : opOfCode o.code = some o := by cases o <;> rfl

/-- Only its own byte selects an opcode. -/
theorem code_of_opOfCode {b : BitVec 8} {o : Op} (h : opOfCode b = some o) : b = o.code := by
  have key : ∀ x : BitVec 8, ∀ p : Op, opOfCode x = some p → x = p.code := by decide +kernel
  exact key b o h

/-- The bits of a word put together from an opcode and two fields (rule R70). -/
theorem getLsbD_word (o : BitVec 8) (a b : BitVec 16) (k : Nat) :
    (o ++ a ++ b : CmdWord).getLsbD k =
      if k < 16 then b.getLsbD k else if k < 32 then a.getLsbD (k - 16) else o.getLsbD (k - 32) := by
  rw [BitVec.getLsbD_append]
  by_cases h : k < 16
  · simp [h]
  · rw [BitVec.getLsbD_append]
    by_cases h2 : k - 16 < 16
    · simp [h, h2, show k < 32 by omega]
    · simp [h, h2, show ¬ k < 32 by omega, show k - 16 - 16 = k - 32 by omega]

@[simp] theorem opField_word (o : BitVec 8) (a b : BitVec 16) : opField (o ++ a ++ b) = o := by
  ext k hk
  simp only [opField, BitVec.getElem_extractLsb', getLsbD_word]
  simp [show ¬ 32 + k < 16 by omega, show 32 + k - 32 = k by omega, BitVec.getLsbD_eq_getElem, hk]

@[simp] theorem aField_word (o : BitVec 8) (a b : BitVec 16) : aField (o ++ a ++ b) = a := by
  ext k hk
  simp only [aField, BitVec.getElem_extractLsb', getLsbD_word]
  simp [show ¬ 16 + k < 16 by omega, show 16 + k < 32 by omega, show 16 + k - 16 = k by omega,
    BitVec.getLsbD_eq_getElem, hk]

@[simp] theorem bField_word (o : BitVec 8) (a b : BitVec 16) : bField (o ++ a ++ b) = b := by
  ext k hk
  simp only [bField, BitVec.getElem_extractLsb', getLsbD_word]
  simp [show k < 16 by omega, BitVec.getLsbD_eq_getElem]

/-- A word is its three fields put together (rule R70). -/
theorem word_of_fields (cw : CmdWord) : (opField cw ++ aField cw ++ bField cw : CmdWord) = cw := by
  apply BitVec.eq_of_getLsbD_eq
  intro k hk
  rw [getLsbD_word]
  simp only [opField, aField, bField, BitVec.getLsbD_extractLsb']
  by_cases h : k < 16
  · simp [h]
  · by_cases h2 : k < 32
    · simp [h, h2, show k - 16 < 16 by omega, show 16 + (k - 16) = k by omega]
    · simp [h, h2, show k - 32 < 8 by omega, show 32 + (k - 32) = k by omega]

/-- An AND with a mask that covers the opcode, cut into the mask's fields. -/
theorem and_word (o m : BitVec 8) (a b ma mb : BitVec 16) :
    (o ++ a ++ b : CmdWord) &&& (m ++ ma ++ mb) = (o &&& m) ++ (a &&& ma) ++ (b &&& mb) := by
  apply BitVec.eq_of_getLsbD_eq
  intro k hk
  simp only [BitVec.getLsbD_and, getLsbD_word]
  by_cases h : k < 16
  · simp [h]
  · by_cases h2 : k < 32 <;> simp [h, h2]

/-- Two words are equal exactly when their fields are. -/
theorem word_inj {o o' : BitVec 8} {a a' b b' : BitVec 16} :
    (o ++ a ++ b : CmdWord) = o' ++ a' ++ b' ↔ o = o' ∧ a = a' ∧ b = b' := by
  constructor
  · intro h
    refine ⟨?_, ?_, ?_⟩
    · simpa using congrArg opField h
    · simpa using congrArg aField h
    · simpa using congrArg bField h
  · rintro ⟨rfl, rfl, rfl⟩
    rfl

/-- The bits of field a that a format reserves (rule R71). -/
def Format.maskA : Format → BitVec 16
  | .n => 0xFFFF | .a => 0 | .ab => 0 | .w => 0 | .v => 0xFFFF | .i => 0xFFFF | .vi => 0xFFFE | .xy => 0xFF00
  | .d => 0xFF00

/-- The bits of field b that a format reserves (rule R71). -/
def Format.maskB : Format → BitVec 16
  | .n => 0xFFFF | .a => 0xFFFF | .ab => 0 | .w => 0 | .v => 0xFFFE | .i => 0xFF00 | .vi => 0xFF00 | .xy => 0xFF00
  | .d => 0xFFF8

theorem Format.mask_eq (f : Format) : f.mask = (0xFF : BitVec 8) ++ f.maskA ++ f.maskB := by cases f <;> rfl

/-- The mask test of rule R74 is that every reserved bit is 0. -/
theorem mask_test (o : Op) (a b : BitVec 16) :
    ((o.code ++ a ++ b : CmdWord) &&& o.format.mask = o.matchWord) ↔
      a &&& o.format.maskA = 0 ∧ b &&& o.format.maskB = 0 := by
  rw [Format.mask_eq, and_word, Op.matchWord, word_inj]
  have : o.code &&& 0xFF = o.code := BitVec.and_allOnes
  rw [this]
  simp

/-- Decoding a word whose opcode byte is a command's. -/
theorem decode_word (o : Op) (a b : BitVec 16) :
    decode (o.code ++ a ++ b) =
      if a &&& o.format.maskA = 0 ∧ b &&& o.format.maskB = 0 then .ok (o.build a b) else .error .reservedBit := by
  simp only [decode, opField_word, opOfCode_code, aField_word, bField_word, mask_test]

end Sys2Proof
end

