-- ==== Sys2Proof/Laws/State.lean ====
section
/-! SUPPORT. One lemma per field per update of State, so that no later proof unfolds a record update. -/

namespace Sys2Proof.Machine

open Sys2Proof

/-! ## setR0 -/

@[simp] theorem State.setR0_status (v : BitVec 16) (s : State) : (s.setR0 v).status = s.status := rfl
@[simp] theorem State.setR0_errcode (v : BitVec 16) (s : State) : (s.setR0 v).errcode = s.errcode := rfl
@[simp] theorem State.setR0_r0 (v : BitVec 16) (s : State) : (s.setR0 v).r0 = v := rfl
@[simp] theorem State.setR0_r1 (v : BitVec 16) (s : State) : (s.setR0 v).r1 = s.r1 := rfl
@[simp] theorem State.setR0_r2 (v : BitVec 16) (s : State) : (s.setR0 v).r2 = s.r2 := rfl
@[simp] theorem State.setR0_acc (v : BitVec 16) (s : State) : (s.setR0 v).acc = s.acc := rfl
@[simp] theorem State.setR0_accWritten (v : BitVec 16) (s : State) : (s.setR0 v).accWritten = s.accWritten := rfl
@[simp] theorem State.setR0_tab (v : BitVec 16) (s : State) : (s.setR0 v).tab = s.tab := rfl
@[simp] theorem State.setR0_view (v : BitVec 16) (s : State) : (s.setR0 v).view = s.view := rfl
@[simp] theorem State.setR0_rowbuf (v : BitVec 16) (s : State) : (s.setR0 v).rowbuf = s.rowbuf := rfl
@[simp] theorem State.setR0_cache0 (v : BitVec 16) (s : State) : (s.setR0 v).cache0 = s.cache0 := rfl
@[simp] theorem State.setR0_cache1 (v : BitVec 16) (s : State) : (s.setR0 v).cache1 = s.cache1 := rfl
@[simp] theorem State.setR0_disp (v : BitVec 16) (s : State) : (s.setR0 v).disp = s.disp := rfl
@[simp] theorem State.setR0_held (v : BitVec 16) (s : State) : (s.setR0 v).held = s.held := rfl
@[simp] theorem State.setR0_cfg (v : BitVec 16) (s : State) : (s.setR0 v).cfg = s.cfg := rfl
@[simp] theorem State.setR0_vblank (v : BitVec 16) (s : State) : (s.setR0 v).vblank = s.vblank := rfl
@[simp] theorem State.setR0_vblankNext (v : BitVec 16) (s : State) : (s.setR0 v).vblankNext = s.vblankNext := rfl
@[simp] theorem State.setR0_events (v : BitVec 16) (s : State) : (s.setR0 v).events = s.events := rfl
@[simp] theorem State.setR0_mem (v : BitVec 16) (s : State) (sp : Space) : (s.setR0 v).mem sp = s.mem sp := by
  rcases sp with _ | (_ | _) | _ <;> rfl
@[simp] theorem State.setR0_byte (v : BitVec 16) (s : State) (sp : Space) (a : Nat) : (s.setR0 v).byte sp a = s.byte sp a := by
  simp [State.byte]

/-! ## setR01 -/

@[simp] theorem State.setR01_status (u v : BitVec 16) (s : State) : (s.setR01 u v).status = s.status := rfl
@[simp] theorem State.setR01_errcode (u v : BitVec 16) (s : State) : (s.setR01 u v).errcode = s.errcode := rfl
@[simp] theorem State.setR01_r0 (u v : BitVec 16) (s : State) : (s.setR01 u v).r0 = u := rfl
@[simp] theorem State.setR01_r1 (u v : BitVec 16) (s : State) : (s.setR01 u v).r1 = v := rfl
@[simp] theorem State.setR01_r2 (u v : BitVec 16) (s : State) : (s.setR01 u v).r2 = s.r2 := rfl
@[simp] theorem State.setR01_acc (u v : BitVec 16) (s : State) : (s.setR01 u v).acc = s.acc := rfl
@[simp] theorem State.setR01_accWritten (u v : BitVec 16) (s : State) : (s.setR01 u v).accWritten = s.accWritten := rfl
@[simp] theorem State.setR01_tab (u v : BitVec 16) (s : State) : (s.setR01 u v).tab = s.tab := rfl
@[simp] theorem State.setR01_view (u v : BitVec 16) (s : State) : (s.setR01 u v).view = s.view := rfl
@[simp] theorem State.setR01_rowbuf (u v : BitVec 16) (s : State) : (s.setR01 u v).rowbuf = s.rowbuf := rfl
@[simp] theorem State.setR01_cache0 (u v : BitVec 16) (s : State) : (s.setR01 u v).cache0 = s.cache0 := rfl
@[simp] theorem State.setR01_cache1 (u v : BitVec 16) (s : State) : (s.setR01 u v).cache1 = s.cache1 := rfl
@[simp] theorem State.setR01_disp (u v : BitVec 16) (s : State) : (s.setR01 u v).disp = s.disp := rfl
@[simp] theorem State.setR01_held (u v : BitVec 16) (s : State) : (s.setR01 u v).held = s.held := rfl
@[simp] theorem State.setR01_cfg (u v : BitVec 16) (s : State) : (s.setR01 u v).cfg = s.cfg := rfl
@[simp] theorem State.setR01_vblank (u v : BitVec 16) (s : State) : (s.setR01 u v).vblank = s.vblank := rfl
@[simp] theorem State.setR01_vblankNext (u v : BitVec 16) (s : State) : (s.setR01 u v).vblankNext = s.vblankNext := rfl
@[simp] theorem State.setR01_events (u v : BitVec 16) (s : State) : (s.setR01 u v).events = s.events := rfl
@[simp] theorem State.setR01_mem (u v : BitVec 16) (s : State) (sp : Space) : (s.setR01 u v).mem sp = s.mem sp := by
  rcases sp with _ | (_ | _) | _ <;> rfl
@[simp] theorem State.setR01_byte (u v : BitVec 16) (s : State) (sp : Space) (a : Nat) : (s.setR01 u v).byte sp a = s.byte sp a := by
  simp [State.byte]

/-! ## setR012 -/

@[simp] theorem State.setR012_status (u v w : BitVec 16) (s : State) : (s.setR012 u v w).status = s.status := rfl
@[simp] theorem State.setR012_errcode (u v w : BitVec 16) (s : State) : (s.setR012 u v w).errcode = s.errcode := rfl
@[simp] theorem State.setR012_r0 (u v w : BitVec 16) (s : State) : (s.setR012 u v w).r0 = u := rfl
@[simp] theorem State.setR012_r1 (u v w : BitVec 16) (s : State) : (s.setR012 u v w).r1 = v := rfl
@[simp] theorem State.setR012_r2 (u v w : BitVec 16) (s : State) : (s.setR012 u v w).r2 = w := rfl
@[simp] theorem State.setR012_acc (u v w : BitVec 16) (s : State) : (s.setR012 u v w).acc = s.acc := rfl
@[simp] theorem State.setR012_accWritten (u v w : BitVec 16) (s : State) : (s.setR012 u v w).accWritten = s.accWritten := rfl
@[simp] theorem State.setR012_tab (u v w : BitVec 16) (s : State) : (s.setR012 u v w).tab = s.tab := rfl
@[simp] theorem State.setR012_view (u v w : BitVec 16) (s : State) : (s.setR012 u v w).view = s.view := rfl
@[simp] theorem State.setR012_rowbuf (u v w : BitVec 16) (s : State) : (s.setR012 u v w).rowbuf = s.rowbuf := rfl
@[simp] theorem State.setR012_cache0 (u v w : BitVec 16) (s : State) : (s.setR012 u v w).cache0 = s.cache0 := rfl
@[simp] theorem State.setR012_cache1 (u v w : BitVec 16) (s : State) : (s.setR012 u v w).cache1 = s.cache1 := rfl
@[simp] theorem State.setR012_disp (u v w : BitVec 16) (s : State) : (s.setR012 u v w).disp = s.disp := rfl
@[simp] theorem State.setR012_held (u v w : BitVec 16) (s : State) : (s.setR012 u v w).held = s.held := rfl
@[simp] theorem State.setR012_cfg (u v w : BitVec 16) (s : State) : (s.setR012 u v w).cfg = s.cfg := rfl
@[simp] theorem State.setR012_vblank (u v w : BitVec 16) (s : State) : (s.setR012 u v w).vblank = s.vblank := rfl
@[simp] theorem State.setR012_vblankNext (u v w : BitVec 16) (s : State) : (s.setR012 u v w).vblankNext = s.vblankNext := rfl
@[simp] theorem State.setR012_events (u v w : BitVec 16) (s : State) : (s.setR012 u v w).events = s.events := rfl
@[simp] theorem State.setR012_mem (u v w : BitVec 16) (s : State) (sp : Space) : (s.setR012 u v w).mem sp = s.mem sp := by
  rcases sp with _ | (_ | _) | _ <;> rfl
@[simp] theorem State.setR012_byte (u v w : BitVec 16) (s : State) (sp : Space) (a : Nat) : (s.setR012 u v w).byte sp a = s.byte sp a := by
  simp [State.byte]

/-! ## setAcc -/

@[simp] theorem State.setAcc_status (v : I32) (s : State) : (s.setAcc v).status = s.status := rfl
@[simp] theorem State.setAcc_errcode (v : I32) (s : State) : (s.setAcc v).errcode = s.errcode := rfl
@[simp] theorem State.setAcc_r0 (v : I32) (s : State) : (s.setAcc v).r0 = s.r0 := rfl
@[simp] theorem State.setAcc_r1 (v : I32) (s : State) : (s.setAcc v).r1 = s.r1 := rfl
@[simp] theorem State.setAcc_r2 (v : I32) (s : State) : (s.setAcc v).r2 = s.r2 := rfl
@[simp] theorem State.setAcc_acc (v : I32) (s : State) : (s.setAcc v).acc = v := rfl
@[simp] theorem State.setAcc_accWritten (v : I32) (s : State) : (s.setAcc v).accWritten = s.accWritten := rfl
@[simp] theorem State.setAcc_tab (v : I32) (s : State) : (s.setAcc v).tab = s.tab := rfl
@[simp] theorem State.setAcc_view (v : I32) (s : State) : (s.setAcc v).view = s.view := rfl
@[simp] theorem State.setAcc_rowbuf (v : I32) (s : State) : (s.setAcc v).rowbuf = s.rowbuf := rfl
@[simp] theorem State.setAcc_cache0 (v : I32) (s : State) : (s.setAcc v).cache0 = s.cache0 := rfl
@[simp] theorem State.setAcc_cache1 (v : I32) (s : State) : (s.setAcc v).cache1 = s.cache1 := rfl
@[simp] theorem State.setAcc_disp (v : I32) (s : State) : (s.setAcc v).disp = s.disp := rfl
@[simp] theorem State.setAcc_held (v : I32) (s : State) : (s.setAcc v).held = s.held := rfl
@[simp] theorem State.setAcc_cfg (v : I32) (s : State) : (s.setAcc v).cfg = s.cfg := rfl
@[simp] theorem State.setAcc_vblank (v : I32) (s : State) : (s.setAcc v).vblank = s.vblank := rfl
@[simp] theorem State.setAcc_vblankNext (v : I32) (s : State) : (s.setAcc v).vblankNext = s.vblankNext := rfl
@[simp] theorem State.setAcc_events (v : I32) (s : State) : (s.setAcc v).events = s.events := rfl
@[simp] theorem State.setAcc_mem (v : I32) (s : State) (sp : Space) : (s.setAcc v).mem sp = s.mem sp := by
  rcases sp with _ | (_ | _) | _ <;> rfl
@[simp] theorem State.setAcc_byte (v : I32) (s : State) (sp : Space) (a : Nat) : (s.setAcc v).byte sp a = s.byte sp a := by
  simp [State.byte]

/-! ## clearAcc -/

@[simp] theorem State.clearAcc_status (s : State) : s.clearAcc.status = s.status := rfl
@[simp] theorem State.clearAcc_errcode (s : State) : s.clearAcc.errcode = s.errcode := rfl
@[simp] theorem State.clearAcc_r0 (s : State) : s.clearAcc.r0 = s.r0 := rfl
@[simp] theorem State.clearAcc_r1 (s : State) : s.clearAcc.r1 = s.r1 := rfl
@[simp] theorem State.clearAcc_r2 (s : State) : s.clearAcc.r2 = s.r2 := rfl
@[simp] theorem State.clearAcc_acc (s : State) : s.clearAcc.acc = 0 := rfl
@[simp] theorem State.clearAcc_accWritten (s : State) : s.clearAcc.accWritten = true := rfl
@[simp] theorem State.clearAcc_tab (s : State) : s.clearAcc.tab = s.tab := rfl
@[simp] theorem State.clearAcc_view (s : State) : s.clearAcc.view = s.view := rfl
@[simp] theorem State.clearAcc_rowbuf (s : State) : s.clearAcc.rowbuf = s.rowbuf := rfl
@[simp] theorem State.clearAcc_cache0 (s : State) : s.clearAcc.cache0 = s.cache0 := rfl
@[simp] theorem State.clearAcc_cache1 (s : State) : s.clearAcc.cache1 = s.cache1 := rfl
@[simp] theorem State.clearAcc_disp (s : State) : s.clearAcc.disp = s.disp := rfl
@[simp] theorem State.clearAcc_held (s : State) : s.clearAcc.held = s.held := rfl
@[simp] theorem State.clearAcc_cfg (s : State) : s.clearAcc.cfg = s.cfg := rfl
@[simp] theorem State.clearAcc_vblank (s : State) : s.clearAcc.vblank = s.vblank := rfl
@[simp] theorem State.clearAcc_vblankNext (s : State) : s.clearAcc.vblankNext = s.vblankNext := rfl
@[simp] theorem State.clearAcc_events (s : State) : s.clearAcc.events = s.events := rfl
@[simp] theorem State.clearAcc_mem (s : State) (sp : Space) : s.clearAcc.mem sp = s.mem sp := by
  rcases sp with _ | (_ | _) | _ <;> rfl
@[simp] theorem State.clearAcc_byte (s : State) (sp : Space) (a : Nat) : s.clearAcc.byte sp a = s.byte sp a := by
  simp [State.byte]

/-! ## noteOvf -/

@[simp] theorem State.noteOvf_status (b : Bool) (s : State) : (s.noteOvf b).status = s.status ||| (if b then 0x0008 else 0) := rfl
@[simp] theorem State.noteOvf_errcode (b : Bool) (s : State) : (s.noteOvf b).errcode = s.errcode := rfl
@[simp] theorem State.noteOvf_r0 (b : Bool) (s : State) : (s.noteOvf b).r0 = s.r0 := rfl
@[simp] theorem State.noteOvf_r1 (b : Bool) (s : State) : (s.noteOvf b).r1 = s.r1 := rfl
@[simp] theorem State.noteOvf_r2 (b : Bool) (s : State) : (s.noteOvf b).r2 = s.r2 := rfl
@[simp] theorem State.noteOvf_acc (b : Bool) (s : State) : (s.noteOvf b).acc = s.acc := rfl
@[simp] theorem State.noteOvf_accWritten (b : Bool) (s : State) : (s.noteOvf b).accWritten = s.accWritten := rfl
@[simp] theorem State.noteOvf_tab (b : Bool) (s : State) : (s.noteOvf b).tab = s.tab := rfl
@[simp] theorem State.noteOvf_view (b : Bool) (s : State) : (s.noteOvf b).view = s.view := rfl
@[simp] theorem State.noteOvf_rowbuf (b : Bool) (s : State) : (s.noteOvf b).rowbuf = s.rowbuf := rfl
@[simp] theorem State.noteOvf_cache0 (b : Bool) (s : State) : (s.noteOvf b).cache0 = s.cache0 := rfl
@[simp] theorem State.noteOvf_cache1 (b : Bool) (s : State) : (s.noteOvf b).cache1 = s.cache1 := rfl
@[simp] theorem State.noteOvf_disp (b : Bool) (s : State) : (s.noteOvf b).disp = s.disp := rfl
@[simp] theorem State.noteOvf_held (b : Bool) (s : State) : (s.noteOvf b).held = s.held := rfl
@[simp] theorem State.noteOvf_cfg (b : Bool) (s : State) : (s.noteOvf b).cfg = s.cfg := rfl
@[simp] theorem State.noteOvf_vblank (b : Bool) (s : State) : (s.noteOvf b).vblank = s.vblank := rfl
@[simp] theorem State.noteOvf_vblankNext (b : Bool) (s : State) : (s.noteOvf b).vblankNext = s.vblankNext := rfl
@[simp] theorem State.noteOvf_events (b : Bool) (s : State) : (s.noteOvf b).events = s.events := rfl
@[simp] theorem State.noteOvf_mem (b : Bool) (s : State) (sp : Space) : (s.noteOvf b).mem sp = s.mem sp := by
  rcases sp with _ | (_ | _) | _ <;> rfl
@[simp] theorem State.noteOvf_byte (b : Bool) (s : State) (sp : Space) (a : Nat) : (s.noteOvf b).byte sp a = s.byte sp a := by
  simp [State.byte]

/-! ## setInitDone -/

@[simp] theorem State.setInitDone_status (s : State) : (s.setInitDone).status = s.status ||| 0x0001 := rfl
@[simp] theorem State.setInitDone_errcode (s : State) : (s.setInitDone).errcode = s.errcode := rfl
@[simp] theorem State.setInitDone_r0 (s : State) : (s.setInitDone).r0 = s.r0 := rfl
@[simp] theorem State.setInitDone_r1 (s : State) : (s.setInitDone).r1 = s.r1 := rfl
@[simp] theorem State.setInitDone_r2 (s : State) : (s.setInitDone).r2 = s.r2 := rfl
@[simp] theorem State.setInitDone_acc (s : State) : (s.setInitDone).acc = s.acc := rfl
@[simp] theorem State.setInitDone_accWritten (s : State) : (s.setInitDone).accWritten = s.accWritten := rfl
@[simp] theorem State.setInitDone_tab (s : State) : (s.setInitDone).tab = s.tab := rfl
@[simp] theorem State.setInitDone_view (s : State) : (s.setInitDone).view = s.view := rfl
@[simp] theorem State.setInitDone_rowbuf (s : State) : (s.setInitDone).rowbuf = s.rowbuf := rfl
@[simp] theorem State.setInitDone_cache0 (s : State) : (s.setInitDone).cache0 = s.cache0 := rfl
@[simp] theorem State.setInitDone_cache1 (s : State) : (s.setInitDone).cache1 = s.cache1 := rfl
@[simp] theorem State.setInitDone_disp (s : State) : (s.setInitDone).disp = s.disp := rfl
@[simp] theorem State.setInitDone_held (s : State) : (s.setInitDone).held = s.held := rfl
@[simp] theorem State.setInitDone_cfg (s : State) : (s.setInitDone).cfg = s.cfg := rfl
@[simp] theorem State.setInitDone_vblank (s : State) : (s.setInitDone).vblank = s.vblank := rfl
@[simp] theorem State.setInitDone_vblankNext (s : State) : (s.setInitDone).vblankNext = s.vblankNext := rfl
@[simp] theorem State.setInitDone_events (s : State) : (s.setInitDone).events = s.events := rfl
@[simp] theorem State.setInitDone_mem (s : State) (sp : Space) : (s.setInitDone).mem sp = s.mem sp := by
  rcases sp with _ | (_ | _) | _ <;> rfl
@[simp] theorem State.setInitDone_byte (s : State) (sp : Space) (a : Nat) : (s.setInitDone).byte sp a = s.byte sp a := by
  simp [State.byte]

/-! ## setViewBits -/

@[simp] theorem State.setViewBits_status (v : ViewId) (s : State) : (s.setViewBits v).status = (s.status &&& ~~~0x0004) ||| (match v with | .front => 0x0002 | .back => 0x0006) := rfl
@[simp] theorem State.setViewBits_errcode (v : ViewId) (s : State) : (s.setViewBits v).errcode = s.errcode := rfl
@[simp] theorem State.setViewBits_r0 (v : ViewId) (s : State) : (s.setViewBits v).r0 = s.r0 := rfl
@[simp] theorem State.setViewBits_r1 (v : ViewId) (s : State) : (s.setViewBits v).r1 = s.r1 := rfl
@[simp] theorem State.setViewBits_r2 (v : ViewId) (s : State) : (s.setViewBits v).r2 = s.r2 := rfl
@[simp] theorem State.setViewBits_acc (v : ViewId) (s : State) : (s.setViewBits v).acc = s.acc := rfl
@[simp] theorem State.setViewBits_accWritten (v : ViewId) (s : State) : (s.setViewBits v).accWritten = s.accWritten := rfl
@[simp] theorem State.setViewBits_tab (v : ViewId) (s : State) : (s.setViewBits v).tab = s.tab := rfl
@[simp] theorem State.setViewBits_view (v : ViewId) (s : State) : (s.setViewBits v).view = s.view := rfl
@[simp] theorem State.setViewBits_rowbuf (v : ViewId) (s : State) : (s.setViewBits v).rowbuf = s.rowbuf := rfl
@[simp] theorem State.setViewBits_cache0 (v : ViewId) (s : State) : (s.setViewBits v).cache0 = s.cache0 := rfl
@[simp] theorem State.setViewBits_cache1 (v : ViewId) (s : State) : (s.setViewBits v).cache1 = s.cache1 := rfl
@[simp] theorem State.setViewBits_disp (v : ViewId) (s : State) : (s.setViewBits v).disp = s.disp := rfl
@[simp] theorem State.setViewBits_held (v : ViewId) (s : State) : (s.setViewBits v).held = s.held := rfl
@[simp] theorem State.setViewBits_cfg (v : ViewId) (s : State) : (s.setViewBits v).cfg = s.cfg := rfl
@[simp] theorem State.setViewBits_vblank (v : ViewId) (s : State) : (s.setViewBits v).vblank = s.vblank := rfl
@[simp] theorem State.setViewBits_vblankNext (v : ViewId) (s : State) : (s.setViewBits v).vblankNext = s.vblankNext := rfl
@[simp] theorem State.setViewBits_events (v : ViewId) (s : State) : (s.setViewBits v).events = s.events := rfl
@[simp] theorem State.setViewBits_mem (v : ViewId) (s : State) (sp : Space) : (s.setViewBits v).mem sp = s.mem sp := by
  rcases sp with _ | (_ | _) | _ <;> rfl
@[simp] theorem State.setViewBits_byte (v : ViewId) (s : State) (sp : Space) (a : Nat) : (s.setViewBits v).byte sp a = s.byte sp a := by
  simp [State.byte]

/-! ## raiseError -/

@[simp] theorem State.raiseError_status (c : ErrorCode) (s : State) : (s.raiseError c).status = s.status ||| 0x0010 := rfl
@[simp] theorem State.raiseError_errcode (c : ErrorCode) (s : State) : (s.raiseError c).errcode = if s.err then s.errcode else c.code := rfl
@[simp] theorem State.raiseError_r0 (c : ErrorCode) (s : State) : (s.raiseError c).r0 = s.r0 := rfl
@[simp] theorem State.raiseError_r1 (c : ErrorCode) (s : State) : (s.raiseError c).r1 = s.r1 := rfl
@[simp] theorem State.raiseError_r2 (c : ErrorCode) (s : State) : (s.raiseError c).r2 = s.r2 := rfl
@[simp] theorem State.raiseError_acc (c : ErrorCode) (s : State) : (s.raiseError c).acc = s.acc := rfl
@[simp] theorem State.raiseError_accWritten (c : ErrorCode) (s : State) : (s.raiseError c).accWritten = s.accWritten := rfl
@[simp] theorem State.raiseError_tab (c : ErrorCode) (s : State) : (s.raiseError c).tab = s.tab := rfl
@[simp] theorem State.raiseError_view (c : ErrorCode) (s : State) : (s.raiseError c).view = s.view := rfl
@[simp] theorem State.raiseError_rowbuf (c : ErrorCode) (s : State) : (s.raiseError c).rowbuf = s.rowbuf := rfl
@[simp] theorem State.raiseError_cache0 (c : ErrorCode) (s : State) : (s.raiseError c).cache0 = s.cache0 := rfl
@[simp] theorem State.raiseError_cache1 (c : ErrorCode) (s : State) : (s.raiseError c).cache1 = s.cache1 := rfl
@[simp] theorem State.raiseError_disp (c : ErrorCode) (s : State) : (s.raiseError c).disp = s.disp := rfl
@[simp] theorem State.raiseError_held (c : ErrorCode) (s : State) : (s.raiseError c).held = s.held := rfl
@[simp] theorem State.raiseError_cfg (c : ErrorCode) (s : State) : (s.raiseError c).cfg = s.cfg := rfl
@[simp] theorem State.raiseError_vblank (c : ErrorCode) (s : State) : (s.raiseError c).vblank = s.vblank := rfl
@[simp] theorem State.raiseError_vblankNext (c : ErrorCode) (s : State) : (s.raiseError c).vblankNext = s.vblankNext := rfl
@[simp] theorem State.raiseError_events (c : ErrorCode) (s : State) : (s.raiseError c).events = s.events := rfl
@[simp] theorem State.raiseError_mem (c : ErrorCode) (s : State) (sp : Space) : (s.raiseError c).mem sp = s.mem sp := by
  rcases sp with _ | (_ | _) | _ <;> rfl
@[simp] theorem State.raiseError_byte (c : ErrorCode) (s : State) (sp : Space) (a : Nat) : (s.raiseError c).byte sp a = s.byte sp a := by
  simp [State.byte]

/-! ## present -/

@[simp] theorem State.present_status (cw : CmdWord) (s : State) : (s.present cw).status = s.status := rfl
@[simp] theorem State.present_errcode (cw : CmdWord) (s : State) : (s.present cw).errcode = s.errcode := rfl
@[simp] theorem State.present_r0 (cw : CmdWord) (s : State) : (s.present cw).r0 = s.r0 := rfl
@[simp] theorem State.present_r1 (cw : CmdWord) (s : State) : (s.present cw).r1 = s.r1 := rfl
@[simp] theorem State.present_r2 (cw : CmdWord) (s : State) : (s.present cw).r2 = s.r2 := rfl
@[simp] theorem State.present_acc (cw : CmdWord) (s : State) : (s.present cw).acc = s.acc := rfl
@[simp] theorem State.present_accWritten (cw : CmdWord) (s : State) : (s.present cw).accWritten = s.accWritten := rfl
@[simp] theorem State.present_tab (cw : CmdWord) (s : State) : (s.present cw).tab = s.tab := rfl
@[simp] theorem State.present_view (cw : CmdWord) (s : State) : (s.present cw).view = s.view := rfl
@[simp] theorem State.present_rowbuf (cw : CmdWord) (s : State) : (s.present cw).rowbuf = s.rowbuf := rfl
@[simp] theorem State.present_cache0 (cw : CmdWord) (s : State) : (s.present cw).cache0 = s.cache0 := rfl
@[simp] theorem State.present_cache1 (cw : CmdWord) (s : State) : (s.present cw).cache1 = s.cache1 := rfl
@[simp] theorem State.present_disp (cw : CmdWord) (s : State) : (s.present cw).disp = s.disp := rfl
@[simp] theorem State.present_held (cw : CmdWord) (s : State) : (s.present cw).held = none := rfl
@[simp] theorem State.present_cfg (cw : CmdWord) (s : State) : (s.present cw).cfg = s.cfg := rfl
@[simp] theorem State.present_vblank (cw : CmdWord) (s : State) : (s.present cw).vblank = s.vblank := rfl
@[simp] theorem State.present_vblankNext (cw : CmdWord) (s : State) : (s.present cw).vblankNext = s.vblankNext := rfl
@[simp] theorem State.present_events (cw : CmdWord) (s : State) : (s.present cw).events = .command cw :: s.events := rfl
@[simp] theorem State.present_mem (cw : CmdWord) (s : State) (sp : Space) : (s.present cw).mem sp = s.mem sp := by
  rcases sp with _ | (_ | _) | _ <;> rfl
@[simp] theorem State.present_byte (cw : CmdWord) (s : State) (sp : Space) (a : Nat) : (s.present cw).byte sp a = s.byte sp a := by
  simp [State.byte]

/-! ## setTab -/

@[simp] theorem State.setTab_status (g : GlobalTables) (s : State) : (s.setTab g).status = s.status := rfl
@[simp] theorem State.setTab_errcode (g : GlobalTables) (s : State) : (s.setTab g).errcode = s.errcode := rfl
@[simp] theorem State.setTab_r0 (g : GlobalTables) (s : State) : (s.setTab g).r0 = s.r0 := rfl
@[simp] theorem State.setTab_r1 (g : GlobalTables) (s : State) : (s.setTab g).r1 = s.r1 := rfl
@[simp] theorem State.setTab_r2 (g : GlobalTables) (s : State) : (s.setTab g).r2 = s.r2 := rfl
@[simp] theorem State.setTab_acc (g : GlobalTables) (s : State) : (s.setTab g).acc = s.acc := rfl
@[simp] theorem State.setTab_accWritten (g : GlobalTables) (s : State) : (s.setTab g).accWritten = s.accWritten := rfl
@[simp] theorem State.setTab_tab (g : GlobalTables) (s : State) : (s.setTab g).tab = g := rfl
@[simp] theorem State.setTab_view (g : GlobalTables) (s : State) : (s.setTab g).view = s.view := rfl
@[simp] theorem State.setTab_rowbuf (g : GlobalTables) (s : State) : (s.setTab g).rowbuf = s.rowbuf := rfl
@[simp] theorem State.setTab_cache0 (g : GlobalTables) (s : State) : (s.setTab g).cache0 = s.cache0 := rfl
@[simp] theorem State.setTab_cache1 (g : GlobalTables) (s : State) : (s.setTab g).cache1 = s.cache1 := rfl
@[simp] theorem State.setTab_disp (g : GlobalTables) (s : State) : (s.setTab g).disp = s.disp := rfl
@[simp] theorem State.setTab_held (g : GlobalTables) (s : State) : (s.setTab g).held = s.held := rfl
@[simp] theorem State.setTab_cfg (g : GlobalTables) (s : State) : (s.setTab g).cfg = s.cfg := rfl
@[simp] theorem State.setTab_vblank (g : GlobalTables) (s : State) : (s.setTab g).vblank = s.vblank := rfl
@[simp] theorem State.setTab_vblankNext (g : GlobalTables) (s : State) : (s.setTab g).vblankNext = s.vblankNext := rfl
@[simp] theorem State.setTab_events (g : GlobalTables) (s : State) : (s.setTab g).events = s.events := rfl
@[simp] theorem State.setTab_mem (g : GlobalTables) (s : State) (sp : Space) : (s.setTab g).mem sp = s.mem sp := by
  rcases sp with _ | (_ | _) | _ <;> rfl
@[simp] theorem State.setTab_byte (g : GlobalTables) (s : State) (sp : Space) (a : Nat) : (s.setTab g).byte sp a = s.byte sp a := by
  simp [State.byte]

/-! ## setView -/

@[simp] theorem State.setView_status (w : ViewTables) (s : State) : (s.setView w).status = s.status := rfl
@[simp] theorem State.setView_errcode (w : ViewTables) (s : State) : (s.setView w).errcode = s.errcode := rfl
@[simp] theorem State.setView_r0 (w : ViewTables) (s : State) : (s.setView w).r0 = s.r0 := rfl
@[simp] theorem State.setView_r1 (w : ViewTables) (s : State) : (s.setView w).r1 = s.r1 := rfl
@[simp] theorem State.setView_r2 (w : ViewTables) (s : State) : (s.setView w).r2 = s.r2 := rfl
@[simp] theorem State.setView_acc (w : ViewTables) (s : State) : (s.setView w).acc = s.acc := rfl
@[simp] theorem State.setView_accWritten (w : ViewTables) (s : State) : (s.setView w).accWritten = s.accWritten := rfl
@[simp] theorem State.setView_tab (w : ViewTables) (s : State) : (s.setView w).tab = s.tab := rfl
@[simp] theorem State.setView_view (w : ViewTables) (s : State) : (s.setView w).view = w := rfl
@[simp] theorem State.setView_rowbuf (w : ViewTables) (s : State) : (s.setView w).rowbuf = s.rowbuf := rfl
@[simp] theorem State.setView_cache0 (w : ViewTables) (s : State) : (s.setView w).cache0 = s.cache0 := rfl
@[simp] theorem State.setView_cache1 (w : ViewTables) (s : State) : (s.setView w).cache1 = s.cache1 := rfl
@[simp] theorem State.setView_disp (w : ViewTables) (s : State) : (s.setView w).disp = s.disp := rfl
@[simp] theorem State.setView_held (w : ViewTables) (s : State) : (s.setView w).held = s.held := rfl
@[simp] theorem State.setView_cfg (w : ViewTables) (s : State) : (s.setView w).cfg = s.cfg := rfl
@[simp] theorem State.setView_vblank (w : ViewTables) (s : State) : (s.setView w).vblank = s.vblank := rfl
@[simp] theorem State.setView_vblankNext (w : ViewTables) (s : State) : (s.setView w).vblankNext = s.vblankNext := rfl
@[simp] theorem State.setView_events (w : ViewTables) (s : State) : (s.setView w).events = s.events := rfl
@[simp] theorem State.setView_mem (w : ViewTables) (s : State) (sp : Space) : (s.setView w).mem sp = s.mem sp := by
  rcases sp with _ | (_ | _) | _ <;> rfl
@[simp] theorem State.setView_byte (w : ViewTables) (s : State) (sp : Space) (a : Nat) : (s.setView w).byte sp a = s.byte sp a := by
  simp [State.byte]

/-! ## hold -/

@[simp] theorem State.hold_status (i : Instr) (s : State) : (s.hold i).status = s.status := rfl
@[simp] theorem State.hold_errcode (i : Instr) (s : State) : (s.hold i).errcode = s.errcode := rfl
@[simp] theorem State.hold_r0 (i : Instr) (s : State) : (s.hold i).r0 = s.r0 := rfl
@[simp] theorem State.hold_r1 (i : Instr) (s : State) : (s.hold i).r1 = s.r1 := rfl
@[simp] theorem State.hold_r2 (i : Instr) (s : State) : (s.hold i).r2 = s.r2 := rfl
@[simp] theorem State.hold_acc (i : Instr) (s : State) : (s.hold i).acc = s.acc := rfl
@[simp] theorem State.hold_accWritten (i : Instr) (s : State) : (s.hold i).accWritten = s.accWritten := rfl
@[simp] theorem State.hold_tab (i : Instr) (s : State) : (s.hold i).tab = s.tab := rfl
@[simp] theorem State.hold_view (i : Instr) (s : State) : (s.hold i).view = s.view := rfl
@[simp] theorem State.hold_rowbuf (i : Instr) (s : State) : (s.hold i).rowbuf = s.rowbuf := rfl
@[simp] theorem State.hold_cache0 (i : Instr) (s : State) : (s.hold i).cache0 = s.cache0 := rfl
@[simp] theorem State.hold_cache1 (i : Instr) (s : State) : (s.hold i).cache1 = s.cache1 := rfl
@[simp] theorem State.hold_disp (i : Instr) (s : State) : (s.hold i).disp = s.disp := rfl
@[simp] theorem State.hold_held (i : Instr) (s : State) : (s.hold i).held = some i := rfl
@[simp] theorem State.hold_cfg (i : Instr) (s : State) : (s.hold i).cfg = s.cfg := rfl
@[simp] theorem State.hold_vblank (i : Instr) (s : State) : (s.hold i).vblank = s.vblank := rfl
@[simp] theorem State.hold_vblankNext (i : Instr) (s : State) : (s.hold i).vblankNext = s.vblankNext := rfl
@[simp] theorem State.hold_events (i : Instr) (s : State) : (s.hold i).events = s.events := rfl
@[simp] theorem State.hold_mem (i : Instr) (s : State) (sp : Space) : (s.hold i).mem sp = s.mem sp := by
  rcases sp with _ | (_ | _) | _ <;> rfl
@[simp] theorem State.hold_byte (i : Instr) (s : State) (sp : Space) (a : Nat) : (s.hold i).byte sp a = s.byte sp a := by
  simp [State.byte]

/-! ## setMem -/

@[simp] theorem State.setMem_status (sp : Space) (m : Memory) (s : State) : (s.setMem sp m).status = s.status := by
  rcases sp with _ | (_ | _) | _ <;> rfl
@[simp] theorem State.setMem_errcode (sp : Space) (m : Memory) (s : State) : (s.setMem sp m).errcode = s.errcode := by
  rcases sp with _ | (_ | _) | _ <;> rfl
@[simp] theorem State.setMem_r0 (sp : Space) (m : Memory) (s : State) : (s.setMem sp m).r0 = s.r0 := by
  rcases sp with _ | (_ | _) | _ <;> rfl
@[simp] theorem State.setMem_r1 (sp : Space) (m : Memory) (s : State) : (s.setMem sp m).r1 = s.r1 := by
  rcases sp with _ | (_ | _) | _ <;> rfl
@[simp] theorem State.setMem_r2 (sp : Space) (m : Memory) (s : State) : (s.setMem sp m).r2 = s.r2 := by
  rcases sp with _ | (_ | _) | _ <;> rfl
@[simp] theorem State.setMem_acc (sp : Space) (m : Memory) (s : State) : (s.setMem sp m).acc = s.acc := by
  rcases sp with _ | (_ | _) | _ <;> rfl
@[simp] theorem State.setMem_accWritten (sp : Space) (m : Memory) (s : State) : (s.setMem sp m).accWritten = s.accWritten := by
  rcases sp with _ | (_ | _) | _ <;> rfl
@[simp] theorem State.setMem_tab (sp : Space) (m : Memory) (s : State) : (s.setMem sp m).tab = s.tab := by
  rcases sp with _ | (_ | _) | _ <;> rfl
@[simp] theorem State.setMem_view (sp : Space) (m : Memory) (s : State) : (s.setMem sp m).view = s.view := by
  rcases sp with _ | (_ | _) | _ <;> rfl
@[simp] theorem State.setMem_held (sp : Space) (m : Memory) (s : State) : (s.setMem sp m).held = s.held := by
  rcases sp with _ | (_ | _) | _ <;> rfl
@[simp] theorem State.setMem_cfg (sp : Space) (m : Memory) (s : State) : (s.setMem sp m).cfg = s.cfg := by
  rcases sp with _ | (_ | _) | _ <;> rfl
@[simp] theorem State.setMem_vblank (sp : Space) (m : Memory) (s : State) : (s.setMem sp m).vblank = s.vblank := by
  rcases sp with _ | (_ | _) | _ <;> rfl
@[simp] theorem State.setMem_vblankNext (sp : Space) (m : Memory) (s : State) : (s.setMem sp m).vblankNext = s.vblankNext := by
  rcases sp with _ | (_ | _) | _ <;> rfl
@[simp] theorem State.setMem_events (sp : Space) (m : Memory) (s : State) : (s.setMem sp m).events = s.events := by
  rcases sp with _ | (_ | _) | _ <;> rfl

/-- The replaced space reads as its new bytes. -/
@[simp] theorem State.setMem_mem_same (sp : Space) (m : Memory) (s : State) : (s.setMem sp m).mem sp = m := by
  rcases sp with _ | (_ | _) | _ <;> rfl

/-- Every other space keeps its bytes. -/
theorem State.setMem_mem_other (sp sp' : Space) (m : Memory) (s : State) (h : sp' ≠ sp) :
    (s.setMem sp m).mem sp' = s.mem sp' := by
  rcases sp with _ | (_ | _) | _ <;> rcases sp' with _ | (_ | _) | _ <;> first | rfl | exact absurd rfl h

/-- Replacing a space's bytes twice keeps the last. -/
@[simp] theorem State.setMem_setMem (sp : Space) (m m' : Memory) (s : State) :
    (s.setMem sp m).setMem sp m' = s.setMem sp m' := by
  rcases sp with _ | (_ | _) | _ <;> rfl

/-- Replacing a space's bytes by what they are changes nothing. -/
@[simp] theorem State.setMem_mem_self (sp : Space) (s : State) : s.setMem sp (s.mem sp) = s := by
  rcases sp with _ | (_ | _) | _ <;> rfl

@[simp] theorem State.setMem_byte_same (sp : Space) (m : Memory) (s : State) (a : Nat) :
    (s.setMem sp m).byte sp a = m.read a := by simp [State.byte]

theorem State.setMem_byte_other (sp sp' : Space) (m : Memory) (s : State) (a : Nat) (h : sp' ≠ sp) :
    (s.setMem sp m).byte sp' a = s.byte sp' a := by simp [State.byte, State.setMem_mem_other sp sp' m s h]

/-! ## hostReset -/

@[simp] theorem State.hostReset_status (s : State) : (s.hostReset).status = 0 := rfl
@[simp] theorem State.hostReset_errcode (s : State) : (s.hostReset).errcode = 0 := rfl
@[simp] theorem State.hostReset_r0 (s : State) : (s.hostReset).r0 = 0 := rfl
@[simp] theorem State.hostReset_r1 (s : State) : (s.hostReset).r1 = 0 := rfl
@[simp] theorem State.hostReset_r2 (s : State) : (s.hostReset).r2 = 0 := rfl
@[simp] theorem State.hostReset_acc (s : State) : (s.hostReset).acc = 0 := rfl
@[simp] theorem State.hostReset_accWritten (s : State) : (s.hostReset).accWritten = false := rfl
@[simp] theorem State.hostReset_tab (s : State) : (s.hostReset).tab = GlobalTables.reset s.cfg := rfl
@[simp] theorem State.hostReset_view (s : State) : (s.hostReset).view = ViewTables.reset s.cfg := rfl
@[simp] theorem State.hostReset_rowbuf (s : State) : (s.hostReset).rowbuf = [] := rfl
@[simp] theorem State.hostReset_cache0 (s : State) : (s.hostReset).cache0 = [] := rfl
@[simp] theorem State.hostReset_cache1 (s : State) : (s.hostReset).cache1 = [] := rfl
@[simp] theorem State.hostReset_disp (s : State) : (s.hostReset).disp = s.disp := rfl
@[simp] theorem State.hostReset_held (s : State) : (s.hostReset).held = none := rfl
@[simp] theorem State.hostReset_cfg (s : State) : (s.hostReset).cfg = s.cfg := rfl
@[simp] theorem State.hostReset_vblank (s : State) : (s.hostReset).vblank = s.vblank := rfl
@[simp] theorem State.hostReset_vblankNext (s : State) : (s.hostReset).vblankNext = s.vblankNext := rfl
@[simp] theorem State.hostReset_events (s : State) : (s.hostReset).events = s.events := rfl

/-! ## sampleVblank -/

@[simp] theorem State.sampleVblank_status (s : State) : s.sampleVblank.status = s.status := by
  unfold State.sampleVblank; split <;> simp_all
@[simp] theorem State.sampleVblank_errcode (s : State) : s.sampleVblank.errcode = s.errcode := by
  unfold State.sampleVblank; split <;> simp_all
@[simp] theorem State.sampleVblank_r0 (s : State) : s.sampleVblank.r0 = s.r0 := by
  unfold State.sampleVblank; split <;> simp_all
@[simp] theorem State.sampleVblank_r1 (s : State) : s.sampleVblank.r1 = s.r1 := by
  unfold State.sampleVblank; split <;> simp_all
@[simp] theorem State.sampleVblank_r2 (s : State) : s.sampleVblank.r2 = s.r2 := by
  unfold State.sampleVblank; split <;> simp_all
@[simp] theorem State.sampleVblank_acc (s : State) : s.sampleVblank.acc = s.acc := by
  unfold State.sampleVblank; split <;> simp_all
@[simp] theorem State.sampleVblank_accWritten (s : State) : s.sampleVblank.accWritten = s.accWritten := by
  unfold State.sampleVblank; split <;> simp_all
@[simp] theorem State.sampleVblank_tab (s : State) : s.sampleVblank.tab = s.tab := by
  unfold State.sampleVblank; split <;> simp_all
@[simp] theorem State.sampleVblank_view (s : State) : s.sampleVblank.view = s.view := by
  unfold State.sampleVblank; split <;> simp_all
@[simp] theorem State.sampleVblank_rowbuf (s : State) : s.sampleVblank.rowbuf = s.rowbuf := by
  unfold State.sampleVblank; split <;> simp_all
@[simp] theorem State.sampleVblank_cache0 (s : State) : s.sampleVblank.cache0 = s.cache0 := by
  unfold State.sampleVblank; split <;> simp_all
@[simp] theorem State.sampleVblank_cache1 (s : State) : s.sampleVblank.cache1 = s.cache1 := by
  unfold State.sampleVblank; split <;> simp_all
@[simp] theorem State.sampleVblank_disp (s : State) : s.sampleVblank.disp = s.disp := by
  unfold State.sampleVblank; split <;> simp_all
@[simp] theorem State.sampleVblank_held (s : State) : s.sampleVblank.held = s.held := by
  unfold State.sampleVblank; split <;> simp_all
@[simp] theorem State.sampleVblank_cfg (s : State) : s.sampleVblank.cfg = s.cfg := by
  unfold State.sampleVblank; split <;> simp_all
@[simp] theorem State.sampleVblank_vblank (s : State) : s.sampleVblank.vblank = s.vblankNext.headD s.vblank := by
  unfold State.sampleVblank; split <;> simp_all
@[simp] theorem State.sampleVblank_vblankNext (s : State) : s.sampleVblank.vblankNext = s.vblankNext.tail := by
  unfold State.sampleVblank; split <;> simp_all
@[simp] theorem State.sampleVblank_events (s : State) : s.sampleVblank.events = s.events := by
  unfold State.sampleVblank; split <;> simp_all

/-- Sampling replaces the level and drops it from the list of levels to come. -/
theorem State.sampleVblank_eq (s : State) :
    s.sampleVblank = { s with vblank := s.vblankNext.headD s.vblank, vblankNext := s.vblankNext.tail } := by
  unfold State.sampleVblank; split <;> rename_i h
  · cases s; simp_all
  · simp [h]

end Sys2Proof.Machine
end

