-- ==== Sys2Proof/Laws/Flags.lean ====
section
/-! SUPPORT. What the flag computations deliver: the parts of a flagged value, and each STATUS bit under each update. -/

namespace Sys2Proof.Machine

open Sys2Proof

section
variable {α β : Type}

@[simp] theorem Flagged.pure_val (a : α) : (Flagged.pure a).val = a := rfl
@[simp] theorem Flagged.pure_ovf (a : α) : (Flagged.pure a).ovf = false := rfl
@[simp] theorem Flagged.bind_val (m : Flagged α) (f : α → Flagged β) : (m.bind f).val = (f m.val).val := rfl
@[simp] theorem Flagged.bind_ovf (m : Flagged α) (f : α → Flagged β) :
    (m.bind f).ovf = (m.ovf || (f m.val).ovf) := rfl
@[simp] theorem Flagged.map_val (f : α → β) (m : Flagged α) : (m.map f).val = f m.val := rfl
@[simp] theorem Flagged.map_ovf (f : α → β) (m : Flagged α) : (m.map f).ovf = m.ovf := rfl
@[simp] theorem Flagged.seq_nil : (Flagged.seq ([] : List (Flagged α))) = .pure [] := rfl

@[simp] theorem Flagged.seq_val (ms : List (Flagged α)) : (Flagged.seq ms).val = ms.map Flagged.val := by
  induction ms with
  | nil => rfl
  | cons m ms ih => simp [Flagged.seq, ih]

@[simp] theorem Flagged.seq_ovf (ms : List (Flagged α)) : (Flagged.seq ms).ovf = ms.any Flagged.ovf := by
  induction ms with
  | nil => rfl
  | cons m ms ih => simp [Flagged.seq, ih]

/-- What delivering a flagged value does: OVF is recorded, then the value is delivered. -/
theorem State.commit_eq (m : Flagged α) (k : α → State → State) (s : State) :
    s.commit m k = k m.val (s.noteOvf m.ovf) := rfl

end

@[simp] theorem narrow16_val (v : Int) : (narrow16 v).val = BitVec.ofInt 16 v := rfl
@[simp] theorem narrow16_ovf (v : Int) : (narrow16 v).ovf = decide (v < -32768 ∨ 32767 < v) := rfl
@[simp] theorem wrap32_val (v : Int) : (wrap32 v).val = BitVec.ofInt 32 v := rfl
@[simp] theorem wrap32_ovf (v : Int) : (wrap32 v).ovf = decide (v < -2147483648 ∨ 2147483647 < v) := rfl

/-- A value that fits 16 bits survives its narrowing. -/
theorem toInt_ofInt16 {v : Int} (h : -32768 ≤ v) (h' : v ≤ 32767) : (BitVec.ofInt 16 v).toInt = v := by
  rw [BitVec.toInt_ofInt, Int.bmod_eq_of_le (by norm_num; omega) (by norm_num; omega)]

/-- A value that fits 32 bits survives its wrapping. -/
theorem toInt_ofInt32 {v : Int} (h : -2147483648 ≤ v) (h' : v ≤ 2147483647) : (BitVec.ofInt 32 v).toInt = v := by
  rw [BitVec.toInt_ofInt, Int.bmod_eq_of_le (by norm_num; omega) (by norm_num; omega)]

/-- The range of a 16-bit signed value. -/
theorem toInt16_bounds (a : I16) : -32768 ≤ a.toInt ∧ a.toInt ≤ 32767 := by
  have h1 := BitVec.toInt_lt (x := a)
  have h2 := BitVec.le_toInt (x := a)
  norm_num at h1 h2
  omega

/-- The range of a 32-bit signed value. -/
theorem toInt32_bounds (a : I32) : -2147483648 ≤ a.toInt ∧ a.toInt ≤ 2147483647 := by
  have h1 := BitVec.toInt_lt (x := a)
  have h2 := BitVec.le_toInt (x := a)
  norm_num at h1 h2
  omega

/-! ## STATUS bits -/

/-- The bits of STATUS that an OR with a numeral sets are set, the others kept. -/
theorem getLsbD_or (x y : BitVec 16) (i : Nat) : (x ||| y).getLsbD i = (x.getLsbD i || y.getLsbD i) :=
  BitVec.getLsbD_or

@[simp] theorem State.noteOvf_ovf (b : Bool) (s : State) : (s.noteOvf b).ovf = (s.ovf || b) := by
  cases b <;> simp [State.ovf]

@[simp] theorem State.noteOvf_initDone (b : Bool) (s : State) : (s.noteOvf b).initDone = s.initDone := by
  cases b <;> simp [State.initDone]

@[simp] theorem State.noteOvf_viewValid (b : Bool) (s : State) : (s.noteOvf b).viewValid = s.viewValid := by
  cases b <;> simp [State.viewValid]

@[simp] theorem State.noteOvf_viewId (b : Bool) (s : State) : (s.noteOvf b).viewId = s.viewId := by
  cases b <;> simp [State.viewId]

@[simp] theorem State.noteOvf_err (b : Bool) (s : State) : (s.noteOvf b).err = s.err := by
  cases b <;> simp [State.err]

@[simp] theorem State.noteOvf_false (s : State) : s.noteOvf false = s := by
  cases s; simp [State.noteOvf]

@[simp] theorem State.setInitDone_initDone (s : State) : s.setInitDone.initDone = true := by
  simp [State.initDone]

@[simp] theorem State.setInitDone_viewValid (s : State) : s.setInitDone.viewValid = s.viewValid := by
  simp [State.viewValid]

@[simp] theorem State.setInitDone_viewId (s : State) : s.setInitDone.viewId = s.viewId := by
  simp [State.viewId]

@[simp] theorem State.setInitDone_ovf (s : State) : s.setInitDone.ovf = s.ovf := by
  simp [State.ovf]

@[simp] theorem State.setInitDone_err (s : State) : s.setInitDone.err = s.err := by
  simp [State.err]

@[simp] theorem State.setViewBits_viewValid (v : ViewId) (s : State) : (s.setViewBits v).viewValid = true := by
  cases v <;> simp [State.viewValid]

@[simp] theorem State.setViewBits_viewId (v : ViewId) (s : State) : (s.setViewBits v).viewId = v := by
  cases v <;> simp [State.viewId]

@[simp] theorem State.setViewBits_initDone (v : ViewId) (s : State) : (s.setViewBits v).initDone = s.initDone := by
  cases v <;> simp [State.initDone]

@[simp] theorem State.setViewBits_ovf (v : ViewId) (s : State) : (s.setViewBits v).ovf = s.ovf := by
  cases v <;> simp [State.ovf]

@[simp] theorem State.setViewBits_err (v : ViewId) (s : State) : (s.setViewBits v).err = s.err := by
  cases v <;> simp [State.err]

@[simp] theorem State.raiseError_err (c : ErrorCode) (s : State) : (s.raiseError c).err = true := by
  simp [State.err]

@[simp] theorem State.raiseError_initDone (c : ErrorCode) (s : State) : (s.raiseError c).initDone = s.initDone := by
  simp [State.initDone]

@[simp] theorem State.raiseError_viewValid (c : ErrorCode) (s : State) :
    (s.raiseError c).viewValid = s.viewValid := by simp [State.viewValid]

@[simp] theorem State.raiseError_viewId (c : ErrorCode) (s : State) : (s.raiseError c).viewId = s.viewId := by
  simp [State.viewId]

@[simp] theorem State.raiseError_ovf (c : ErrorCode) (s : State) : (s.raiseError c).ovf = s.ovf := by
  simp [State.ovf]

/-! ## Updates that leave STATUS alone leave every flag -/

@[simp] theorem State.setR0_initDone (v : BitVec 16) (s : State) : (s.setR0 v).initDone = s.initDone := rfl
@[simp] theorem State.setR0_viewValid (v : BitVec 16) (s : State) : (s.setR0 v).viewValid = s.viewValid := rfl
@[simp] theorem State.setR0_viewId (v : BitVec 16) (s : State) : (s.setR0 v).viewId = s.viewId := rfl
@[simp] theorem State.setR0_ovf (v : BitVec 16) (s : State) : (s.setR0 v).ovf = s.ovf := rfl
@[simp] theorem State.setR0_err (v : BitVec 16) (s : State) : (s.setR0 v).err = s.err := rfl
@[simp] theorem State.setR01_initDone (u v : BitVec 16) (s : State) : (s.setR01 u v).initDone = s.initDone := rfl
@[simp] theorem State.setR01_viewValid (u v : BitVec 16) (s : State) : (s.setR01 u v).viewValid = s.viewValid := rfl
@[simp] theorem State.setR01_viewId (u v : BitVec 16) (s : State) : (s.setR01 u v).viewId = s.viewId := rfl
@[simp] theorem State.setR01_ovf (u v : BitVec 16) (s : State) : (s.setR01 u v).ovf = s.ovf := rfl
@[simp] theorem State.setR01_err (u v : BitVec 16) (s : State) : (s.setR01 u v).err = s.err := rfl
@[simp] theorem State.setR012_initDone (u v w : BitVec 16) (s : State) : (s.setR012 u v w).initDone = s.initDone := rfl
@[simp] theorem State.setR012_viewValid (u v w : BitVec 16) (s : State) : (s.setR012 u v w).viewValid = s.viewValid := rfl
@[simp] theorem State.setR012_viewId (u v w : BitVec 16) (s : State) : (s.setR012 u v w).viewId = s.viewId := rfl
@[simp] theorem State.setR012_ovf (u v w : BitVec 16) (s : State) : (s.setR012 u v w).ovf = s.ovf := rfl
@[simp] theorem State.setR012_err (u v w : BitVec 16) (s : State) : (s.setR012 u v w).err = s.err := rfl
@[simp] theorem State.setAcc_initDone (v : I32) (s : State) : (s.setAcc v).initDone = s.initDone := rfl
@[simp] theorem State.setAcc_viewValid (v : I32) (s : State) : (s.setAcc v).viewValid = s.viewValid := rfl
@[simp] theorem State.setAcc_viewId (v : I32) (s : State) : (s.setAcc v).viewId = s.viewId := rfl
@[simp] theorem State.setAcc_ovf (v : I32) (s : State) : (s.setAcc v).ovf = s.ovf := rfl
@[simp] theorem State.setAcc_err (v : I32) (s : State) : (s.setAcc v).err = s.err := rfl
@[simp] theorem State.clearAcc_initDone (s : State) : s.clearAcc.initDone = s.initDone := rfl
@[simp] theorem State.clearAcc_viewValid (s : State) : s.clearAcc.viewValid = s.viewValid := rfl
@[simp] theorem State.clearAcc_viewId (s : State) : s.clearAcc.viewId = s.viewId := rfl
@[simp] theorem State.clearAcc_ovf (s : State) : s.clearAcc.ovf = s.ovf := rfl
@[simp] theorem State.clearAcc_err (s : State) : s.clearAcc.err = s.err := rfl
@[simp] theorem State.setTab_initDone (g : GlobalTables) (s : State) : (s.setTab g).initDone = s.initDone := rfl
@[simp] theorem State.setTab_viewValid (g : GlobalTables) (s : State) : (s.setTab g).viewValid = s.viewValid := rfl
@[simp] theorem State.setTab_viewId (g : GlobalTables) (s : State) : (s.setTab g).viewId = s.viewId := rfl
@[simp] theorem State.setTab_ovf (g : GlobalTables) (s : State) : (s.setTab g).ovf = s.ovf := rfl
@[simp] theorem State.setTab_err (g : GlobalTables) (s : State) : (s.setTab g).err = s.err := rfl
@[simp] theorem State.setView_initDone (w : ViewTables) (s : State) : (s.setView w).initDone = s.initDone := rfl
@[simp] theorem State.setView_viewValid (w : ViewTables) (s : State) : (s.setView w).viewValid = s.viewValid := rfl
@[simp] theorem State.setView_viewId (w : ViewTables) (s : State) : (s.setView w).viewId = s.viewId := rfl
@[simp] theorem State.setView_ovf (w : ViewTables) (s : State) : (s.setView w).ovf = s.ovf := rfl
@[simp] theorem State.setView_err (w : ViewTables) (s : State) : (s.setView w).err = s.err := rfl
@[simp] theorem State.hold_initDone (i : Instr) (s : State) : (s.hold i).initDone = s.initDone := rfl
@[simp] theorem State.hold_viewValid (i : Instr) (s : State) : (s.hold i).viewValid = s.viewValid := rfl
@[simp] theorem State.hold_viewId (i : Instr) (s : State) : (s.hold i).viewId = s.viewId := rfl
@[simp] theorem State.hold_ovf (i : Instr) (s : State) : (s.hold i).ovf = s.ovf := rfl
@[simp] theorem State.hold_err (i : Instr) (s : State) : (s.hold i).err = s.err := rfl
@[simp] theorem State.setMem_initDone (sp : Space) (m : Memory) (s : State) : (s.setMem sp m).initDone = s.initDone := by
  rcases sp with _ | (_ | _) | _ <;> rfl
@[simp] theorem State.setMem_viewValid (sp : Space) (m : Memory) (s : State) : (s.setMem sp m).viewValid = s.viewValid := by
  rcases sp with _ | (_ | _) | _ <;> rfl
@[simp] theorem State.setMem_viewId (sp : Space) (m : Memory) (s : State) : (s.setMem sp m).viewId = s.viewId := by
  rcases sp with _ | (_ | _) | _ <;> rfl
@[simp] theorem State.setMem_ovf (sp : Space) (m : Memory) (s : State) : (s.setMem sp m).ovf = s.ovf := by
  rcases sp with _ | (_ | _) | _ <;> rfl
@[simp] theorem State.setMem_err (sp : Space) (m : Memory) (s : State) : (s.setMem sp m).err = s.err := by
  rcases sp with _ | (_ | _) | _ <;> rfl

end Sys2Proof.Machine
end

