-- ==== Sys2Proof/Laws/Memory.lean ====
section
/-! SUPPORT. The byte memories: what a read finds after a write, that every operation keeps the canonical form, and
what a run of stores or copies does, each said once. -/

namespace Sys2Proof.Machine

open Sys2Proof

/-! ## The canonical form -/

theorem Memory.risesFrom_mono {lo lo' : Nat} {m : Memory} (h : m.risesFrom lo = true) (hle : lo' ≤ lo) :
    m.risesFrom lo' = true := by
  cases m with
  | nil => rfl
  | cons e m =>
    simp only [Memory.risesFrom, Bool.and_eq_true, decide_eq_true_eq] at h ⊢
    exact ⟨hle.trans h.1, h.2⟩

/-- A canonical memory lists nothing below its first bound. -/
theorem Memory.read_below {lo a : Nat} {m : Memory} (h : m.risesFrom lo = true) (ha : a < lo) : m.read a = none := by
  induction m generalizing lo with
  | nil => rfl
  | cons e m ih =>
    simp only [Memory.risesFrom, Bool.and_eq_true, decide_eq_true_eq] at h
    rw [Memory.read, if_neg (by omega)]
    exact ih h.2 (by omega)

theorem Memory.write_risesFrom {lo a : Nat} {m : Memory} (v : Option Byte) (h : m.risesFrom lo = true) (ha : lo ≤ a) :
    (m.write a v).risesFrom lo = true := by
  induction m generalizing lo with
  | nil => cases v <;> simp [Memory.write, Memory.risesFrom, ha]
  | cons e m ih =>
    obtain ⟨k, c⟩ := e
    have h' := h
    simp only [Memory.risesFrom, Bool.and_eq_true, decide_eq_true_eq] at h
    unfold Memory.write
    split
    · cases v with
      | none => exact h'
      | some b =>
        simp only [Memory.risesFrom, Bool.and_eq_true, decide_eq_true_eq]
        exact ⟨ha, by omega, h.2⟩
    · split
      · cases v with
        | none => exact Memory.risesFrom_mono h.2 (by omega)
        | some b =>
          simp only [Memory.risesFrom, Bool.and_eq_true, decide_eq_true_eq]
          exact ⟨ha, by rename_i h1; exact h1 ▸ h.2⟩
      · simp only [Memory.risesFrom, Bool.and_eq_true, decide_eq_true_eq]
        exact ⟨h.1, ih h.2 (by omega)⟩

/-- A write keeps the canonical form. -/
theorem Memory.write_wf {m : Memory} (a : Nat) (v : Option Byte) (h : m.wf = true) : (m.write a v).wf = true :=
  Memory.write_risesFrom v h (Nat.zero_le a)

/-- The empty memory is canonical. -/
theorem Memory.nil_wf : Memory.wf [] = true := rfl

/-! ## Reads after a write -/

/-- A write leaves every other address alone. -/
theorem Memory.read_write_other (m : Memory) {a a' : Nat} (v : Option Byte) (h : a' ≠ a) :
    (m.write a v).read a' = m.read a' := by
  induction m with
  | nil => cases v <;> simp [Memory.write, Memory.read, h]
  | cons e m ih =>
    obtain ⟨k, c⟩ := e
    unfold Memory.write
    split
    · cases v <;> simp [Memory.read, h]
    · split
      · rename_i h2
        have : ¬ a' = k := h2 ▸ h
        cases v <;> simp [Memory.read, h, this]
      · simp only [Memory.read, ih]

/-- A byte stored reads back. -/
theorem Memory.read_write_some (m : Memory) (a : Nat) (b : Byte) : (m.write a (some b)).read a = some b := by
  induction m with
  | nil => simp [Memory.write, Memory.read]
  | cons e m ih =>
    obtain ⟨k, c⟩ := e
    unfold Memory.write
    split
    · simp [Memory.read]
    · split
      · simp [Memory.read]
      · rename_i h1 h2
        simp [Memory.read, h2, ih]

/-- What is written reads back, in a canonical memory also where the byte is made unwritten. -/
theorem Memory.read_write_same {m : Memory} (a : Nat) (v : Option Byte) (h : m.wf = true) :
    (m.write a v).read a = v := by
  cases v with
  | some b => exact Memory.read_write_some m a b
  | none =>
    unfold Memory.wf at h
    generalize (0 : Nat) = lo at h
    induction m generalizing lo with
    | nil => rfl
    | cons e m ih =>
      obtain ⟨k, c⟩ := e
      simp only [Memory.risesFrom, Bool.and_eq_true, decide_eq_true_eq] at h
      unfold Memory.write
      split
      · rename_i h1
        simp only [Memory.read, if_neg (show ¬ a = k by omega)]
        exact Memory.read_below h.2 (by omega)
      · split
        · exact Memory.read_below h.2 (by omega)
        · rename_i h1 h2
          simp only [Memory.read, if_neg h2]
          exact ih _ h.2

/-- A read finds only listed bytes. -/
theorem Memory.mem_of_read {m : Memory} {a : Nat} {b : Byte} (h : m.read a = some b) : (a, b) ∈ m := by
  induction m with
  | nil => simp [Memory.read] at h
  | cons e m ih =>
    obtain ⟨k, c⟩ := e
    unfold Memory.read at h
    split at h
    · rename_i h1
      cases h
      exact h1 ▸ List.mem_cons_self ..
    · exact List.mem_cons_of_mem _ (ih h)

/-- A write lists nothing but the address written and what was listed. -/
theorem Memory.mem_write {m : Memory} {a : Nat} {v : Option Byte} {p : Host.Cell} (h : p ∈ m.write a v) :
    p ∈ m ∨ (p.1 = a ∧ v = some p.2) := by
  induction m with
  | nil => cases v <;> simp_all [Memory.write]
  | cons e m ih =>
    obtain ⟨k, c⟩ := e
    unfold Memory.write at h
    split at h
    · cases v <;> simp only [List.mem_cons] at h ⊢ <;> rcases h with h | h <;> simp_all
    · split at h
      · cases v with
        | none => exact .inl (List.mem_cons_of_mem _ h)
        | some b =>
          rcases List.mem_cons.1 h with h | h
          · exact .inr (by simp [h])
          · exact .inl (List.mem_cons_of_mem _ h)
      · rcases List.mem_cons.1 h with h | h
        · exact .inl (h ▸ List.mem_cons_self ..)
        · rcases ih h with h | h
          · exact .inl (List.mem_cons_of_mem _ h)
          · exact .inr h

/-! ## Runs of stores and copies -/

/-- A run of writes. -/
def Memory.writes (m : Memory) (ws : List (Nat × Option Byte)) : Memory := ws.foldl (fun m w => m.write w.1 w.2) m

@[simp] theorem Memory.writes_nil (m : Memory) : m.writes [] = m := rfl

@[simp] theorem Memory.writes_cons (m : Memory) (w : Nat × Option Byte) (ws : List (Nat × Option Byte)) :
    m.writes (w :: ws) = (m.write w.1 w.2).writes ws := rfl

theorem Memory.writes_append (m : Memory) (us ws : List (Nat × Option Byte)) :
    m.writes (us ++ ws) = (m.writes us).writes ws := by simp [Memory.writes]

theorem Memory.writes_wf {m : Memory} (ws : List (Nat × Option Byte)) (h : m.wf = true) : (m.writes ws).wf = true := by
  induction ws generalizing m with
  | nil => exact h
  | cons w ws ih => exact ih (Memory.write_wf _ _ h)

/-- A run of writes leaves alone every address it does not name. -/
theorem Memory.read_writes_other {m : Memory} {ws : List (Nat × Option Byte)} {a : Nat} (h : ∀ w ∈ ws, a ≠ w.1) :
    (m.writes ws).read a = m.read a := by
  induction ws generalizing m with
  | nil => rfl
  | cons w ws ih =>
    rw [Memory.writes_cons, ih fun x hx => h x (List.mem_cons_of_mem _ hx),
      Memory.read_write_other _ _ (h w (List.mem_cons_self ..))]

/-- Where every write to an address writes the same, that is what is read after the run. -/
theorem Memory.read_writes_mem {m : Memory} {ws : List (Nat × Option Byte)} {a : Nat} {v : Option Byte}
    (hm : m.wf = true) (hmem : (a, v) ∈ ws) (hall : ∀ w ∈ ws, w.1 = a → w.2 = v) : (m.writes ws).read a = v := by
  induction ws generalizing m with
  | nil => cases hmem
  | cons w ws ih =>
    rw [Memory.writes_cons]
    by_cases hin : (a, v) ∈ ws
    · exact ih (Memory.write_wf _ _ hm) hin fun x hx => hall x (List.mem_cons_of_mem _ hx)
    · have hw : w = (a, v) := by
        rcases List.mem_cons.1 hmem with h | h
        · exact h.symm
        · exact absurd h hin
      subst hw
      rw [Memory.read_writes_other, Memory.read_write_same a v hm]
      intro x hx hax
      exact hin (by
        have := hall x (List.mem_cons_of_mem _ hx) hax.symm
        cases x; simp_all)

/-- The same for stored bytes, in any memory. -/
theorem Memory.read_writes_some {m : Memory} {ws : List (Nat × Option Byte)} {a : Nat} {b : Byte}
    (hmem : (a, some b) ∈ ws) (hall : ∀ w ∈ ws, w.1 = a → w.2 = some b) : (m.writes ws).read a = some b := by
  induction ws generalizing m with
  | nil => cases hmem
  | cons w ws ih =>
    rw [Memory.writes_cons]
    by_cases hin : (a, some b) ∈ ws
    · exact ih hin fun x hx => hall x (List.mem_cons_of_mem _ hx)
    · have hw : w = (a, some b) := by
        rcases List.mem_cons.1 hmem with h | h
        · exact h.symm
        · exact absurd h hin
      subst hw
      rw [Memory.read_writes_other, Memory.read_write_some]
      intro x hx hax
      exact hin (by
        have := hall x (List.mem_cons_of_mem _ hx) hax.symm
        cases x; simp_all)

@[simp] theorem holds_setMem (sp sp' : Space) (m : Memory) (s : State) (a : Nat) :
    sp.holds (s.setMem sp' m).cfg a = sp.holds s.cfg a := by simp

/-- `memWrite` inside its space replaces one byte and changes nothing else. -/
theorem memWrite_ok {sp : Space} {a : Nat} {v : Option Byte} {s : State} (h : sp.holds s.cfg a = true) :
    memWrite sp a v s = .ok (s.setMem sp ((s.mem sp).write a v)) := by simp [memWrite, h]

/-- `memRead` inside its space answers the byte. -/
theorem memRead_ok {sp : Space} {a : Nat} {s : State} (h : sp.holds s.cfg a = true) :
    memRead sp a s = .ok (s.byte sp a) := by simp [memRead, h]

/-- All that a run of stores inside its space does. -/
theorem memWriteAll_ok {sp : Space} {ws : List (Nat × Byte)} {s : State}
    (h : ∀ w ∈ ws, sp.holds s.cfg w.1 = true) :
    memWriteAll sp ws s = .ok (s.setMem sp ((s.mem sp).writes (ws.map fun w => (w.1, some w.2)))) := by
  induction ws generalizing s with
  | nil => simp [memWriteAll]
  | cons w ws ih =>
    obtain ⟨a, b⟩ := w
    rw [memWriteAll, memWrite_ok (h _ (List.mem_cons_self ..))]
    simp only
    rw [ih fun w hw => by simpa using h w (List.mem_cons_of_mem _ hw)]
    simp

/-- All that a run of copies between two different spaces does: every source is read as it stood before. -/
theorem memCopyAll_ok {dst src : Space} {ms : List (Nat × Nat)} {s : State} (hne : src ≠ dst)
    (hd : ∀ p ∈ ms, dst.holds s.cfg p.1 = true) (hs : ∀ p ∈ ms, src.holds s.cfg p.2 = true) :
    memCopyAll dst src ms s =
      .ok (s.setMem dst ((s.mem dst).writes (ms.map fun p => (p.1, s.byte src p.2)))) := by
  induction ms generalizing s with
  | nil => simp [memCopyAll]
  | cons p ms ih =>
    obtain ⟨d, a⟩ := p
    rw [memCopyAll, memRead_ok (hs _ (List.mem_cons_self ..))]
    simp only
    rw [memWrite_ok (hd _ (List.mem_cons_self ..))]
    simp only
    rw [ih (fun p hp => by simpa using hd p (List.mem_cons_of_mem _ hp))
      (fun p hp => by simpa using hs p (List.mem_cons_of_mem _ hp))]
    simp [State.setMem_byte_other _ _ _ _ _ hne]

/-- Whatever a run of stores answers, it is the state with one space's bytes replaced. -/
theorem memWriteAll_inv {sp : Space} {ws : List (Nat × Byte)} {s t : State} (h : memWriteAll sp ws s = .ok t) :
    t = s.setMem sp ((s.mem sp).writes (ws.map fun w => (w.1, some w.2))) ∧
      ∀ w ∈ ws, sp.holds s.cfg w.1 = true := by
  induction ws generalizing s with
  | nil =>
    cases h
    simp
  | cons w ws ih =>
    obtain ⟨a, b⟩ := w
    unfold memWriteAll memWrite at h
    by_cases hh : sp.holds s.cfg a = true
    · simp only [hh, if_true] at h
      obtain ⟨ht, hw⟩ := ih h
      refine ⟨by simpa using ht, fun w hm => ?_⟩
      rcases List.mem_cons.1 hm with hm | hm
      · exact hm ▸ hh
      · simpa using hw w hm
    · simp [hh] at h

end Sys2Proof.Machine
end

