-- ==== Sys2Proof/Laws/Ops.lean ====
section
/-! SUPPORT. What each shared operation of a meaning can do, said once: the range check, the vblank wait, a command's
memory work, the step's choice of its next action; and the address bounds the copies rest on. -/

namespace Sys2Proof.Machine

open Sys2Proof

theorem checked_true (s : State) (k : State → Result) : checked true s k = k s := rfl

theorem checked_false (s : State) (k : State → Result) : checked false s k = .next (s.raiseError .range) := rfl

/-- A checked command that answers a next state either passed its check or raised Error(2). -/
theorem checked_next {b : Bool} {s t : State} {k : State → Result} (h : checked b s k = .next t) :
    (b = true ∧ k s = .next t) ∨ (b = false ∧ t = s.raiseError .range) := by
  cases b with
  | true => exact .inl ⟨rfl, h⟩
  | false => cases h; exact .inr ⟨rfl, rfl⟩

/-- A waiting command that answers a next state either went on with vblank high or was held with vblank low. -/
theorem awaitVblank_next {i : Instr} {s t : State} {k : State → Result} (h : awaitVblank i s k = .next t) :
    (s.vblank = true ∧ k s = .next t) ∨ (s.vblank = false ∧ t = s.hold i) := by
  unfold awaitVblank at h
  cases hv : s.vblank with
  | true => simp only [hv, if_true] at h; exact .inl ⟨rfl, h⟩
  | false =>
    simp only [hv, Bool.false_eq_true, if_false] at h
    cases h
    exact .inr ⟨rfl, rfl⟩

theorem finish_next {e : Except Fault State} {t : State} (h : finish e = .next t) : e = .ok t := by
  cases e with
  | ok s => cases h; rfl
  | error f => cases h

/-! ## What comes next -/

theorem nextAction_reset {s : State} {es : List HostEvent} (h : s.events = .reset :: es) :
    s.nextAction = (.reset, { s with events := es }) := by
  unfold State.nextAction; rw [h]

theorem nextAction_resume {s : State} {i : Instr} (hh : s.held = some i) (he : s.events.head? ≠ some .reset) :
    s.nextAction = (.resume i, { s with held := none }) := by
  unfold State.nextAction
  split <;> simp_all

theorem nextAction_command {s : State} {cw : CmdWord} {es : List HostEvent} (hh : s.held = none)
    (he : s.events = .command cw :: es) : s.nextAction = (.command cw, { s with events := es }) := by
  unfold State.nextAction; rw [he, hh]

theorem nextAction_idle {s : State} (hh : s.held = none) (he : s.events = []) : s.nextAction = (.idle, s) := by
  unfold State.nextAction; rw [he, hh]

/-- The four things a step can do, each with the state it does it in. -/
theorem nextAction_cases (s : State) :
    (∃ es, s.events = .reset :: es ∧ s.nextAction = (.reset, { s with events := es })) ∨
    (∃ i, s.held = some i ∧ s.nextAction = (.resume i, { s with held := none })) ∨
    (∃ cw es, s.held = none ∧ s.events = .command cw :: es ∧
      s.nextAction = (.command cw, { s with events := es })) ∨
    (s.held = none ∧ s.events = [] ∧ s.nextAction = (.idle, s)) := by
  obtain ⟨ev, he⟩ : ∃ ev, s.events = ev := ⟨_, rfl⟩
  obtain ⟨hd, hh⟩ : ∃ hd, s.held = hd := ⟨_, rfl⟩
  match ev, hd, he, hh with
  | .reset :: es, _, he, _ => exact .inl ⟨es, he, nextAction_reset he⟩
  | [], some i, he, hh => exact .inr (.inl ⟨i, hh, nextAction_resume hh (by simp [he])⟩)
  | .command cw :: es, some i, he, hh => exact .inr (.inl ⟨i, hh, nextAction_resume hh (by simp [he])⟩)
  | .command cw :: es, none, he, hh => exact .inr (.inr (.inl ⟨cw, es, hh, he, nextAction_command hh he⟩))
  | [], none, he, hh => exact .inr (.inr (.inr ⟨hh, he, nextAction_idle hh he⟩))

/-- A tile of tile row `tr` is a tile. -/
theorem tile_lt {c : Config} {tr tc : Nat} (hr : tr < c.th) (hc : tc < c.tw) : tr * c.tw + tc < c.nt := by
  unfold Config.nt
  nlinarith

/-- The two ways of writing the range check agree. -/
theorem inRange_tileRow (c : Config) (tr : Nat) : tileRowInRange c tr = decide (tr < c.h / 8) := rfl

/-! ## Clamped indices (rules R140, R142) -/

theorem clamp_bounds (v : Int) {lo hi : Int} (h : lo ≤ hi) : lo ≤ clamp v lo hi ∧ clamp v lo hi ≤ hi := by
  unfold clamp
  split
  · exact ⟨le_refl _, h⟩
  · split <;> constructor <;> omega

theorem sphIndex_lt (c : Config) (dd : Int) : sphIndex c dd < 64 := by
  have := clamp_bounds (asr (dd - (c.sphMin : Int)) c.sphShift) (lo := 0) (hi := (sphN : Int) - 1) (by decide)
  unfold sphIndex
  simp only [sphN] at this ⊢
  omega

theorem shdIndex_lt (c : Config) (d2 : Int) : shdIndex c d2 < 128 := by
  have := clamp_bounds (asr d2 c.shdShift) (lo := 0) (hi := (shdN : Int) - 1) (by decide)
  unfold shdIndex
  simp only [shdN] at this ⊢
  omega

end Sys2Proof.Machine
end

