-- ==== Sys2Proof/Laws/Raster.lean ====
section
/-! SUPPORT. The raster and cache commands form no address outside a space (20_memory.md rule R56), so each answers a
next state, written here as the state with one byte space replaced. -/

namespace Sys2Proof.Machine

open Sys2Proof

theorem Space.holds_iff (c : Config) (sp : Space) (a : Nat) :
    sp.holds c a = true ↔ sp.base c ≤ a ∧ a < sp.base c + sp.size c := by
  unfold Space.holds
  exact decide_eq_true_iff

theorem rowbuf_holds {c : Config} {tc k : Nat} (hc : tc < c.tw) (hk : k < 16) :
    Space.rowbuf.holds c (rowbufAddr tc k) = true := by
  simp only [Space.holds_iff, Space.base, Space.size, rowbufAddr]
  omega

theorem disp_holds {c : Config} {n k : Nat} (hn : n < c.nt) (hk : k < 16) :
    Space.disp.holds c (dispAddr c n k) = true := by
  simp only [Space.holds_iff, Space.base, Space.size, dispAddr]
  omega

theorem cache_holds {c : Config} {v : ViewId} {n k : Nat} (hn : n < c.nt) (hk : k < 16) :
    (Space.cache v).holds c (cacheAddr n k) = true := by
  simp only [Space.holds_iff, Space.base, Space.size, cacheAddr]
  omega

/-- Every copy of UPROW is from ROWBUF into the owned block. -/
theorem uprowMoves_holds {c : Config} {tr : Nat} (h : tr < c.th) :
    ∀ p ∈ uprowMoves c tr, Space.disp.holds c p.1 = true ∧ Space.rowbuf.holds c p.2 = true := by
  intro p hp
  simp only [uprowMoves, List.mem_flatMap, List.mem_map, List.mem_range] at hp
  obtain ⟨tc, hc, k, hk, rfl⟩ := hp
  exact ⟨disp_holds (tile_lt h hc) hk, rowbuf_holds hc hk⟩

/-- Every copy of UPLINE is from ROWBUF into the owned block. -/
theorem uplineMoves_holds {c : Config} {y : Nat} (h : y < c.h) :
    ∀ p ∈ uplineMoves c y, Space.disp.holds c p.1 = true ∧ Space.rowbuf.holds c p.2 = true := by
  intro p hp
  simp only [uplineMoves, List.mem_flatMap, List.mem_map, List.mem_range] at hp
  obtain ⟨tc, hc, k, hk, rfl⟩ := hp
  have hk : k < 16 := by
    simp only [List.mem_cons, List.not_mem_nil, or_false] at hk
    omega
  have hr : y / 8 < c.th := by
    have := c.h_eq
    omega
  exact ⟨disp_holds (tile_lt hr hc) hk, rowbuf_holds hc hk⟩

/-- Every copy of STOREROW is from ROWBUF into the cache. -/
theorem storerowMoves_holds {c : Config} {v : ViewId} {tr : Nat} (h : tr < c.th) :
    ∀ p ∈ storerowMoves c tr, (Space.cache v).holds c p.1 = true ∧ Space.rowbuf.holds c p.2 = true := by
  intro p hp
  simp only [storerowMoves, List.mem_map, List.mem_range] at hp
  obtain ⟨j, hj, rfl⟩ := hp
  have h1 : tr * c.tw + c.tw ≤ c.nt := by
    unfold Config.nt
    nlinarith
  have h2 : tr * c.tw * 16 + c.tw * 16 ≤ c.nt * 16 := by omega
  simp only [Space.holds_iff, Space.base, Space.size]
  omega

/-- Every copy of LOADSCENE is from the cache into the owned block. -/
theorem loadsceneMoves_holds {c : Config} (v : ViewId) :
    ∀ p ∈ loadsceneMoves c, Space.disp.holds c p.1 = true ∧ (Space.cache v).holds c p.2 = true := by
  intro p hp
  simp only [loadsceneMoves, List.mem_flatMap, List.mem_map, List.mem_range] at hp
  obtain ⟨n, hn, k, hk, rfl⟩ := hp
  exact ⟨disp_holds hn hk, cache_holds hn hk⟩

/-- The stores of a scanline: the plane bytes of each tile column. -/
theorem renderLineWrites_val (c : Config) (g : GlobalTables) (v : ViewTables) (y : Nat) :
    (renderLineWrites c g v y).val =
      (List.range c.tw).flatMap fun tc => tileLineBytes (y % 8) tc (tileLine c g v y tc).val := by
  simp [renderLineWrites, List.flatMap, List.map_map, Function.comp_def]

theorem tileLine_val (c : Config) (g : GlobalTables) (v : ViewTables) (y tc : Nat) :
    (tileLine c g v y tc).val = (List.range 8).map fun k => (shadePixel c g v (tc * 8 + k) y).val.colour := by
  simp [tileLine, List.map_map, Function.comp_def]

/-- A scanline overflows exactly where one of its pixels does. -/
theorem renderLineWrites_ovf (c : Config) (g : GlobalTables) (v : ViewTables) (y : Nat) :
    (renderLineWrites c g v y).ovf =
      (List.range c.tw).any fun tc => (List.range 8).any fun k => (shadePixel c g v (tc * 8 + k) y).ovf := by
  simp [renderLineWrites, tileLine, List.any_map, Function.comp_def]

/-- Every store of a scanline is in ROWBUF. -/
theorem renderLineWrites_holds (c : Config) (g : GlobalTables) (v : ViewTables) (y : Nat) :
    ∀ w ∈ (renderLineWrites c g v y).val, Space.rowbuf.holds c w.1 = true := by
  intro w hw
  simp only [renderLineWrites_val, List.mem_flatMap, List.mem_range, tileLineBytes, List.mem_cons, List.not_mem_nil,
    or_false] at hw
  obtain ⟨tc, hc, rfl | rfl⟩ := hw
  · exact rowbuf_holds hc (by omega)
  · exact rowbuf_holds hc (by omega)

/-- All that `render_line` does (rule R202). -/
theorem renderLine_ok (y : Nat) (s : State) :
    renderLine y s = .ok ((s.noteOvf (renderLineWrites s.cfg s.tab s.view y).ovf).setMem .rowbuf
      (s.rowbuf.writes ((renderLineWrites s.cfg s.tab s.view y).val.map fun w => (w.1, some w.2)))) := by
  unfold renderLine
  simp only
  rw [memWriteAll_ok (by simpa using renderLineWrites_holds s.cfg s.tab s.view y)]
  rfl

/-- Several scanlines always render; only ROWBUF and OVF change. -/
theorem renderLines_ok (ys : List Nat) (s : State) :
    renderLines ys s = .ok ((s.noteOvf (ys.any fun y => (renderLineWrites s.cfg s.tab s.view y).ovf)).setMem .rowbuf
      (s.rowbuf.writes (ys.flatMap fun y =>
        (renderLineWrites s.cfg s.tab s.view y).val.map fun w => (w.1, some w.2)))) := by
  induction ys generalizing s with
  | nil => cases s; simp [renderLines, State.setMem]
  | cons y ys ih =>
    rw [renderLines, renderLine_ok]
    simp only
    rw [ih]
    cases hb : (renderLineWrites s.cfg s.tab s.view y).ovf <;>
      cases hc : (ys.any fun y => (renderLineWrites s.cfg s.tab s.view y).ovf) <;>
      simp [State.setMem, State.noteOvf, hb, hc, Memory.writes_append, BitVec.or_assoc]

theorem execRendline_ok {y : Nat} {s : State} (h : y < s.cfg.h) :
    execRendline y s = .next ((s.noteOvf (renderLineWrites s.cfg s.tab s.view y).ovf).setMem .rowbuf
      (s.rowbuf.writes ((renderLineWrites s.cfg s.tab s.view y).val.map fun w => (w.1, some w.2)))) := by
  simp [execRendline, lineInRange, h, checked_true, renderLine_ok, finish]

theorem execRendrow_ok {tr : Nat} {s : State} (h : tr < s.cfg.th) :
    execRendrow tr s = .next ((s.noteOvf ((linesOfRow tr).any fun y =>
        (renderLineWrites s.cfg s.tab s.view y).ovf)).setMem .rowbuf
      (s.rowbuf.writes ((linesOfRow tr).flatMap fun y =>
        (renderLineWrites s.cfg s.tab s.view y).val.map fun w => (w.1, some w.2)))) := by
  simp only [execRendrow, tileRowInRange, h, decide_true, checked_true, renderLines_ok, finish]

theorem execUprow_ok {tr : Nat} {s : State} (h : tr < s.cfg.th) (hv : s.vblank = true) :
    execUprow tr s = .next (s.setMem .disp
      (s.disp.writes ((uprowMoves s.cfg tr).map fun p => (p.1, s.byte .rowbuf p.2)))) := by
  have hm := uprowMoves_holds h
  simp only [execUprow, tileRowInRange, h, decide_true, checked_true, awaitVblank, hv, if_true,
    memCopyAll_ok (by decide) (fun p hp => (hm p hp).1) (fun p hp => (hm p hp).2), finish]
  rfl

theorem execUpline_ok {y : Nat} {s : State} (h : y < s.cfg.h) (hv : s.vblank = true) :
    execUpline y s = .next (s.setMem .disp
      (s.disp.writes ((uplineMoves s.cfg y).map fun p => (p.1, s.byte .rowbuf p.2)))) := by
  have hm := uplineMoves_holds h
  simp only [execUpline, lineInRange, h, decide_true, checked_true, awaitVblank, hv, if_true,
    memCopyAll_ok (by decide) (fun p hp => (hm p hp).1) (fun p hp => (hm p hp).2), finish]
  rfl

theorem execStorerow_ok {v : ViewId} {tr : Nat} {s : State} (h : tr < s.cfg.th) :
    execStorerow v tr s = .next (s.setMem (.cache v)
      ((s.mem (.cache v)).writes ((storerowMoves s.cfg tr).map fun p => (p.1, s.byte .rowbuf p.2)))) := by
  have hm := storerowMoves_holds (v := v) h
  simp only [execStorerow, tileRowInRange, h, decide_true, checked_true,
    memCopyAll_ok (show Space.rowbuf ≠ .cache v by simp) (fun p hp => (hm p hp).1) (fun p hp => (hm p hp).2), finish]

theorem execLoadscene_ok {v : ViewId} {s : State} (hv : s.vblank = true) :
    execLoadscene v s = .next (s.setMem .disp
      (s.disp.writes ((loadsceneMoves s.cfg).map fun p => (p.1, s.byte (.cache v) p.2)))) := by
  have hm := loadsceneMoves_holds (c := s.cfg) v
  simp only [execLoadscene, awaitVblank, hv, if_true,
    memCopyAll_ok (show Space.cache v ≠ .disp by simp) (fun p hp => (hm p hp).1) (fun p hp => (hm p hp).2), finish]
  rfl

end Sys2Proof.Machine
end

