-- ==== Sys2Proof/Laws/Exec.lean ====
section
/-! SUPPORT. Everything a command can do, said once: it raises Error(2), or it is held, or it has its effect. -/

namespace Sys2Proof.Machine

open Sys2Proof

/-- The state a command leaves that passes its range check and does not wait. -/
def effect : Instr → State → State
  | .nop, s => s
  | .fxint a, s => s.commit (fxFromInt a.toInt) State.setR0
  | .fxtrunc a, s => s.setR0 (BitVec.ofInt 16 (fxToInt a))
  | .fxmul a b, s => s.commit (fxMul a b) State.setR0
  | .macclr, s => s.clearAcc
  | .mac a b, s => s.commit (macStep s.acc a b) State.setAcc
  | .macrd, s => s.commit (macNarrow s.acc) State.setR0
  | .init, s => s.commit (buildGlobals s.cfg) fun g t => (t.setTab g).setInitDone
  | .setview v, s => s.commit (buildView s.cfg s.tab v) fun w t => (t.setView w).setViewBits v
  | .sphlut ab, s =>
    s.setR012 (elem16 s.tab.sphT (sphIndex s.cfg ab.toInt)) (elem16 s.tab.sphP2 (sphIndex s.cfg ab.toInt))
      (natWord (sphIndex s.cfg ab.toInt))
  | .shdlut ab, s =>
    s.setR01 ((shdElem s.tab (shdIndex s.cfg ab.toInt)).setWidth 16) (natWord (shdIndex s.cfg ab.toInt))
  | .raydir x y, s => s.setR012 (elem16 s.tab.dx x) (elem16 s.tab.dy y) s.tab.dz
  | .gndrow y, s => s.setR012 (bitWord (s.view.ghit.getD y false)) (elem16 s.view.gt y) (elem16 s.view.gz y)
  | .isect x y, s =>
    s.commit (intersect s.cfg s.tab s.view x y) fun k => State.setR012 k.kind.code k.t (natWord k.idx)
  | .shade x y, s =>
    s.commit (shadePixel s.cfg s.tab s.view x y) fun k =>
      State.setR012 (k.colour.setWidth 16) (k.bright.setWidth 16) k.kind.code
  | .dither b x y f, s => s.setR0 ((dither b x y f).setWidth 16)
  | .tilepack px, s => s.setR01 ((packLo (pixelsOf px)).setWidth 16) ((packHi (pixelsOf px)).setWidth 16)
  | .rendrow tr, s =>
    (s.noteOvf ((linesOfRow tr).any fun y =>
        (renderLineWrites s.cfg s.tab s.view y).ovf)).setMem .rowbuf
      (s.rowbuf.writes ((linesOfRow tr).flatMap fun y =>
        (renderLineWrites s.cfg s.tab s.view y).val.map fun w => (w.1, some w.2)))
  | .rendline y, s =>
    (s.noteOvf (renderLineWrites s.cfg s.tab s.view y).ovf).setMem .rowbuf
      (s.rowbuf.writes ((renderLineWrites s.cfg s.tab s.view y).val.map fun w => (w.1, some w.2)))
  | .uprow tr, s =>
    s.setMem .disp
      (s.disp.writes ((uprowMoves s.cfg tr).map fun p => (p.1, s.byte .rowbuf p.2)))
  | .upline y, s =>
    s.setMem .disp
      (s.disp.writes ((uplineMoves s.cfg y).map fun p => (p.1, s.byte .rowbuf p.2)))
  | .storerow v tr, s =>
    s.setMem (.cache v)
      ((s.mem (.cache v)).writes ((storerowMoves s.cfg tr).map fun p => (p.1, s.byte .rowbuf p.2)))
  | .loadscene v, s =>
    s.setMem .disp
      (s.disp.writes ((loadsceneMoves s.cfg).map fun p => (p.1, s.byte (.cache v) p.2)))

/-- Everything `exec` can do. -/
theorem exec_eq (i : Instr) (s : State) :
    exec i s = .next (
      if inRange s.cfg i = true then
        if waitsForVblank i = true ∧ s.vblank = false then s.hold i else effect i s
      else s.raiseError .range) := by
  by_cases hr : inRange s.cfg i = true
  · rw [if_pos hr]
    by_cases hw : waitsForVblank i = true ∧ s.vblank = false
    · rw [if_pos hw]
      obtain ⟨h1, h2⟩ := hw
      cases i <;> simp only [waitsForVblank, Bool.false_eq_true] at h1
      case uprow tr =>
        have h : tileRowInRange s.cfg tr = true := hr
        simp [exec, execUprow, checked, h, awaitVblank, h2]
      case upline y =>
        have h : lineInRange s.cfg y = true := hr
        simp [exec, execUpline, checked, h, awaitVblank, h2]
      case loadscene v => simp [exec, execLoadscene, awaitVblank, h2]
    · rw [if_neg hw]
      have hv : waitsForVblank i = true → s.vblank = true := by simpa using hw
      cases i
      case rendrow tr => exact execRendrow_ok (of_decide_eq_true hr)
      case rendline y => exact execRendline_ok (of_decide_eq_true hr)
      case uprow tr => exact execUprow_ok (of_decide_eq_true hr) (hv rfl)
      case upline y => exact execUpline_ok (of_decide_eq_true hr) (hv rfl)
      case loadscene v => exact execLoadscene_ok (hv rfl)
      case storerow v tr => exact execStorerow_ok (of_decide_eq_true hr)
      case raydir x y =>
        have h : pixelInRange s.cfg x y = true := hr
        simp only [exec, execRaydir, checked, h, if_true]
        rfl
      case gndrow y =>
        have h : lineInRange s.cfg y = true := hr
        simp only [exec, execGndrow, checked, h, if_true]
        rfl
      case isect x y =>
        have h : pixelInRange s.cfg x y = true := hr
        simp only [exec, execIsect, checked, h, if_true]
        rfl
      case shade x y =>
        have h : pixelInRange s.cfg x y = true := hr
        simp only [exec, execShade, checked, h, if_true]
        rfl
      all_goals rfl
  · rw [if_neg hr]
    have hf : inRange s.cfg i = false := by simpa using hr
    cases i
    case rendrow tr =>
      have h : tileRowInRange s.cfg tr = false := hf
      simp only [exec, execRendrow, checked, h, Bool.false_eq_true, if_false]
    case rendline y =>
      have h : lineInRange s.cfg y = false := hf
      simp only [exec, execRendline, checked, h, Bool.false_eq_true, if_false]
    case uprow tr =>
      have h : tileRowInRange s.cfg tr = false := hf
      simp only [exec, execUprow, checked, h, Bool.false_eq_true, if_false]
    case upline y =>
      have h : lineInRange s.cfg y = false := hf
      simp only [exec, execUpline, checked, h, Bool.false_eq_true, if_false]
    case storerow v tr =>
      have h : tileRowInRange s.cfg tr = false := hf
      simp only [exec, execStorerow, checked, h, Bool.false_eq_true, if_false]
    case raydir x y =>
      have h : pixelInRange s.cfg x y = false := hf
      simp only [exec, execRaydir, checked, h, Bool.false_eq_true, if_false]
    case gndrow y =>
      have h : lineInRange s.cfg y = false := hf
      simp only [exec, execGndrow, checked, h, Bool.false_eq_true, if_false]
    case isect x y =>
      have h : pixelInRange s.cfg x y = false := hf
      simp only [exec, execIsect, checked, h, Bool.false_eq_true, if_false]
    case shade x y =>
      have h : pixelInRange s.cfg x y = false := hf
      simp only [exec, execShade, checked, h, Bool.false_eq_true, if_false]
    all_goals exact absurd rfl hr

/-- Where a command answers a next state, it is one of three. -/
theorem exec_cases {i : Instr} {s t : State} (h : exec i s = .next t) :
    (inRange s.cfg i = false ∧ t = s.raiseError .range) ∨
    (inRange s.cfg i = true ∧ waitsForVblank i = true ∧ s.vblank = false ∧ t = s.hold i) ∨
    (inRange s.cfg i = true ∧ (waitsForVblank i = true → s.vblank = true) ∧ t = effect i s) := by
  rw [exec_eq] at h
  cases h
  by_cases hr : inRange s.cfg i = true
  · by_cases hw : waitsForVblank i = true ∧ s.vblank = false
    · exact .inr (.inl ⟨hr, hw.1, hw.2, by rw [if_pos hr, if_pos hw]⟩)
    · exact .inr (.inr ⟨hr, by simpa using hw, by rw [if_pos hr, if_neg hw]⟩)
  · exact .inl ⟨by simpa using hr, by rw [if_neg hr]⟩

end Sys2Proof.Machine
end

