-- ==== Sys2Proof/Laws/PerInstr.lean ====
section
/-! SUPPORT. Facts about every command as syntax, one lemma per constructor (LAWS.json). -/

namespace Sys2Proof.Laws

open Sys2Proof

/-- The encoder sets no bit that the command's format reserves (rules R71, R78). -/
def ReservedBitsZero.Statement (i : Instr) : Prop :=
  i.wellFormed = true → i.fieldA &&& i.op.format.maskA = 0 ∧ i.fieldB &&& i.op.format.maskB = 0

/-- An index that fits its field leaves the field's high byte 0. -/
theorem index_field_reserved {n : Nat} (h : fitsIndexField n = true) : BitVec.ofNat 16 n &&& 0xFF00 = 0 := by
  have hn : n < 256 := by simpa [fitsIndexField] using h
  have key : ∀ k : Fin 256, BitVec.ofNat 16 k.val &&& 0xFF00 = 0 := by decide +kernel
  exact key ⟨n, hn⟩

/-- A brightness leaves the field's high byte 0. -/
theorem byte_field_reserved (b : Byte) : b.setWidth 16 &&& 0xFF00 = 0 := by
  have key : ∀ b : BitVec 8, b.setWidth 16 &&& (0xFF00 : BitVec 16) = 0 := by decide +kernel
  exact key b

theorem view_field_reserved (v : ViewId) : v.field &&& 0xFFFE = 0 := by cases v <;> rfl

theorem dither_field_reserved (xp yp : Bool) (surf : Surface) : ditherField xp yp surf &&& 0xFFF8 = 0 := by
  cases xp <;> cases yp <;> cases surf <;> rfl

theorem ReservedBitsZero.nop : ReservedBitsZero.Statement .nop := fun _ => ⟨rfl, rfl⟩
theorem ReservedBitsZero.fxint (sa : I16) : ReservedBitsZero.Statement (.fxint sa) :=
  fun _ => ⟨BitVec.and_zero, BitVec.zero_and⟩
theorem ReservedBitsZero.fxtrunc (sa : I16) : ReservedBitsZero.Statement (.fxtrunc sa) :=
  fun _ => ⟨BitVec.and_zero, BitVec.zero_and⟩
theorem ReservedBitsZero.fxmul (sa sb : I16) : ReservedBitsZero.Statement (.fxmul sa sb) :=
  fun _ => ⟨BitVec.and_zero, BitVec.and_zero⟩
theorem ReservedBitsZero.macclr : ReservedBitsZero.Statement .macclr := fun _ => ⟨rfl, rfl⟩
theorem ReservedBitsZero.mac (sa sb : I16) : ReservedBitsZero.Statement (.mac sa sb) :=
  fun _ => ⟨BitVec.and_zero, BitVec.and_zero⟩
theorem ReservedBitsZero.macrd : ReservedBitsZero.Statement .macrd := fun _ => ⟨rfl, rfl⟩
theorem ReservedBitsZero.init : ReservedBitsZero.Statement .init := fun _ => ⟨rfl, rfl⟩
theorem ReservedBitsZero.setview (v : ViewId) : ReservedBitsZero.Statement (.setview v) :=
  fun _ => ⟨BitVec.zero_and, view_field_reserved v⟩
theorem ReservedBitsZero.sphlut (ab : I32) : ReservedBitsZero.Statement (.sphlut ab) :=
  fun _ => ⟨BitVec.and_zero, BitVec.and_zero⟩
theorem ReservedBitsZero.shdlut (ab : I32) : ReservedBitsZero.Statement (.shdlut ab) :=
  fun _ => ⟨BitVec.and_zero, BitVec.and_zero⟩

theorem pixel_fields_reserved {x y : Nat} (h : (fitsIndexField x && fitsIndexField y) = true) :
    BitVec.ofNat 16 x &&& 0xFF00 = 0 ∧ BitVec.ofNat 16 y &&& 0xFF00 = 0 := by
  rw [Bool.and_eq_true] at h
  exact ⟨index_field_reserved h.1, index_field_reserved h.2⟩

theorem ReservedBitsZero.raydir (x y : Nat) : ReservedBitsZero.Statement (.raydir x y) := pixel_fields_reserved
theorem ReservedBitsZero.gndrow (y : Nat) : ReservedBitsZero.Statement (.gndrow y) :=
  fun h => ⟨BitVec.zero_and, index_field_reserved h⟩
theorem ReservedBitsZero.isect (x y : Nat) : ReservedBitsZero.Statement (.isect x y) := pixel_fields_reserved
theorem ReservedBitsZero.shade (x y : Nat) : ReservedBitsZero.Statement (.shade x y) := pixel_fields_reserved
theorem ReservedBitsZero.dither (bright : Byte) (xp yp : Bool) (surf : Surface) :
    ReservedBitsZero.Statement (.dither bright xp yp surf) :=
  fun _ => ⟨byte_field_reserved bright, dither_field_reserved xp yp surf⟩
theorem ReservedBitsZero.tilepack (px : I16) : ReservedBitsZero.Statement (.tilepack px) :=
  fun _ => ⟨BitVec.and_zero, BitVec.zero_and⟩
theorem ReservedBitsZero.rendrow (tr : Nat) : ReservedBitsZero.Statement (.rendrow tr) :=
  fun h => ⟨BitVec.zero_and, index_field_reserved h⟩
theorem ReservedBitsZero.rendline (y : Nat) : ReservedBitsZero.Statement (.rendline y) :=
  fun h => ⟨BitVec.zero_and, index_field_reserved h⟩
theorem ReservedBitsZero.uprow (tr : Nat) : ReservedBitsZero.Statement (.uprow tr) :=
  fun h => ⟨BitVec.zero_and, index_field_reserved h⟩
theorem ReservedBitsZero.upline (y : Nat) : ReservedBitsZero.Statement (.upline y) :=
  fun h => ⟨BitVec.zero_and, index_field_reserved h⟩
theorem ReservedBitsZero.storerow (v : ViewId) (tr : Nat) : ReservedBitsZero.Statement (.storerow v tr) :=
  fun h => ⟨view_field_reserved v, index_field_reserved h⟩
theorem ReservedBitsZero.loadscene (v : ViewId) : ReservedBitsZero.Statement (.loadscene v) :=
  fun _ => ⟨BitVec.zero_and, view_field_reserved v⟩

end Sys2Proof.Laws
end

