-- ==== Sys2Proof/Laws/Pixel.lean ====
section
/-! SUPPORT. What the pixel operations answer, one lemma per operation for its value and one for its flag, so that no later
proof unfolds them: 16-bit sums, a normal component, the brightness of each surface, the pixel of each surface. -/

namespace Sys2Proof.Machine

open Sys2Proof

/-! ## 16-bit sums and products -/

@[simp] theorem add16_val (a b : I16) : (add16 a b).val = a + b := by
  apply BitVec.eq_of_toInt_eq
  simp [add16, BitVec.toInt_add]

@[simp] theorem sub16_val (a b : I16) : (sub16 a b).val = a - b := by
  apply BitVec.eq_of_toInt_eq
  simp [sub16, BitVec.toInt_sub]

theorem fxMul_val (a b : I16) : (fxMul a b).val = BitVec.ofInt 16 (a.toInt * b.toInt / 256) := rfl

/-- A narrowing overflows exactly where the value does not fit 16 bits. -/
theorem narrow16_ovf_iff (v : Int) : (narrow16 v).ovf = true ↔ ¬(-32768 ≤ v ∧ v ≤ 32767) := by
  simp only [narrow16_ovf, decide_eq_true_eq]; omega

/-- A wrapping overflows exactly where the value does not fit 32 bits. -/
theorem wrap32_ovf_iff (v : Int) : (wrap32 v).ovf = true ↔ ¬(-2147483648 ≤ v ∧ v ≤ 2147483647) := by
  simp only [wrap32_ovf, decide_eq_true_eq]; omega

/-- A square kept wide (rule R96) survives its 32-bit container. -/
theorem sq32_toInt (d : I16) : (BitVec.ofInt 32 (sq32 d)).toInt = d.toInt ^ 2 / 256 := by
  have hd := toInt16_bounds d
  have h1 : d.toInt * d.toInt ≤ 1073741824 := by nlinarith
  have h2 : 0 ≤ d.toInt * d.toInt := by nlinarith
  have e : sq32 d = d.toInt * d.toInt / 256 := rfl
  rw [e, toInt_ofInt32 (by omega) (by omega), pow_two]

/-! ## The sphere's brightness -/

theorem normalCoord_val (c : Config) (t cam d centre : I16) :
    (normalCoord c t cam d centre).val =
      BitVec.ofInt 16 (asr (cam + (fxMul t d).val - centre).toInt c.nrmShift) := by
  simp [normalCoord]

/-- The three narrowings of a normal component (rule R170). -/
theorem normalCoord_ovf (c : Config) (t cam d centre : I16) :
    (normalCoord c t cam d centre).ovf =
      ((fxMul t d).ovf || (add16 cam (fxMul t d).val).ovf || (sub16 (cam + (fxMul t d).val) centre).ovf) := by
  simp [normalCoord, Bool.or_assoc]

theorem sphereBrightness_val (c : Config) (g : GlobalTables) (v : ViewTables) (x y : Nat) (t : I16) :
    (sphereBrightness c g v x y t).val = lambert c (dot3 (sphereNormal c g x y t).val v.light).val := by
  simp [sphereBrightness]

theorem sphereBrightness_ovf (c : Config) (g : GlobalTables) (v : ViewTables) (x y : Nat) (t : I16) :
    (sphereBrightness c g v x y t).ovf =
      ((sphereNormal c g x y t).ovf || (dot3 (sphereNormal c g x y t).val v.light).ovf) := by
  simp [sphereBrightness]

/-! ## The ground's brightness -/

/-- The three narrowings of `ground_brightness` (rule R173). -/
theorem groundBrightness_ovf (c : Config) (g : GlobalTables) (v : ViewTables) (x y : Nat) :
    let m := fxMul (elem16 v.gt y) (elem16 g.dx x)
    (groundBrightness c g v x y).ovf =
      (m.ovf || (add16 c.cam.x m.val).ovf || (sub16 (c.cam.x + m.val) v.sx).ovf) := by
  simp [groundBrightness, Bool.or_assoc]

/-! ## The pixel of each surface (rule R177) -/

section
variable {c : Config} {g : GlobalTables} {v : ViewTables} {x y : Nat}

theorem shadePixel_sphere (h : (intersect c g v x y).val.kind = .sphere) :
    shadePixel c g v x y =
      ⟨shaded x y .sphere .sphere (sphereBrightness c g v x y (intersect c g v x y).val.t).val,
        (intersect c g v x y).ovf || (sphereBrightness c g v x y (intersect c g v x y).val.t).ovf⟩ := by
  simp only [shadePixel, Flagged.bind, h]; rfl

theorem shadePixel_ground (h : (intersect c g v x y).val.kind = .ground) :
    shadePixel c g v x y =
      ⟨shaded x y .ground .ground (groundBrightness c g v x y).val,
        (intersect c g v x y).ovf || (groundBrightness c g v x y).ovf⟩ := by
  simp only [shadePixel, Flagged.bind, h]; rfl

theorem shadePixel_sky (h : (intersect c g v x y).val.kind = .sky) :
    shadePixel c g v x y = ⟨⟨skyColour, 0, .sky⟩, (intersect c g v x y).ovf⟩ := by
  simp [shadePixel, Flagged.bind, Flagged.pure, h]

/-- SHADE reports the surface that ISECT reports. -/
theorem shadePixel_kind : (shadePixel c g v x y).val.kind = (intersect c g v x y).val.kind := by
  simp only [shadePixel, Flagged.bind_val]
  split <;> simp_all [shaded]

end

end Sys2Proof.Machine
end

