-- ==== Sys2Proof/Laws/Tables.lean ====
section
/-! SUPPORT. The components of the tables INIT and SETVIEW build, one lemma each, so that no later proof unfolds the two
builders. -/

namespace Sys2Proof.Machine

open Sys2Proof

/-- Element of a table built index by index. -/
theorem getD_range {α : Type} (f : Nat → α) (n i : Nat) (d : α) (h : i < n) :
    ((List.range n).map f).getD i d = f i := by simp [List.getD, h]

/-! ## The global tables -/

/-- oc of rule R122 under a configuration. -/
def ocOf (c : Config) : Vec3 := (buildOc c).val

theorem buildGlobals_dx (c : Config) :
    (buildGlobals c).val.dx = (List.range c.w).map fun x => (rayX c x).val := by
  simp [buildGlobals, Function.comp_def]

theorem buildGlobals_dx2 (c : Config) :
    (buildGlobals c).val.dx2 = (List.range c.w).map fun x => (fxMul (rayX c x).val (rayX c x).val).val := by
  simp [buildGlobals, buildSquares, Function.comp_def]

theorem buildGlobals_dy (c : Config) :
    (buildGlobals c).val.dy = (List.range c.h).map fun y => (rayY c y).val := by
  simp [buildGlobals, Function.comp_def]

theorem buildGlobals_dy2 (c : Config) :
    (buildGlobals c).val.dy2 = (List.range c.h).map fun y => (fxMul (rayY c y).val (rayY c y).val).val := by
  simp [buildGlobals, buildSquares, Function.comp_def]

theorem buildGlobals_dz (c : Config) : (buildGlobals c).val.dz = c.rayDz := by simp [buildGlobals]

theorem buildGlobals_dz2 (c : Config) : (buildGlobals c).val.dz2 = (fxMul c.rayDz c.rayDz).val := by
  simp [buildGlobals]

theorem buildGlobals_oc2 (c : Config) : (buildGlobals c).val.oc2 = (dot3 (ocOf c) (ocOf c)).val := by
  simp [buildGlobals, ocOf]

theorem buildGlobals_ocd (c : Config) : (buildGlobals c).val.ocd = (fxMul (ocOf c).z c.rayDz).val := by
  simp [buildGlobals, ocOf]

theorem buildGlobals_r2c (c : Config) : (buildGlobals c).val.r2c = 1024 := by
  have h : (fxMul sphR sphR).val = 1024 := by decide
  simp [buildGlobals, h]

theorem buildGlobals_sphP2 (c : Config) :
    (buildGlobals c).val.sphP2 = (List.range 64).map fun i => (sphP2Entry c (buildGlobals c).val.ocd i).val := by
  simp [buildGlobals, Function.comp_def, sphN]

theorem buildGlobals_sphT (c : Config) :
    (buildGlobals c).val.sphT = (List.range 64).map fun i =>
      (sphTEntry c (buildGlobals c).val.ocd (sub16 (buildGlobals c).val.oc2 (buildGlobals c).val.r2c).val i).val := by
  simp [buildGlobals, Function.comp_def, sphN]

theorem buildGlobals_shd (c : Config) : (buildGlobals c).val.shd = (List.range 128).map (shdEntry c) := by
  simp [buildGlobals, shdN]

/-- Every narrowing of INIT. -/
theorem buildGlobals_ovf (c : Config) :
    (buildGlobals c).ovf =
      ((fxMul c.rayDz c.rayDz).ovf ||
        ((List.range c.w).any fun x => (rayX c x).ovf) ||
        ((List.range c.w).any fun x => (fxMul (rayX c x).val (rayX c x).val).ovf) ||
        ((List.range c.h).any fun y => (rayY c y).ovf) ||
        ((List.range c.h).any fun y => (fxMul (rayY c y).val (rayY c y).val).ovf) ||
        (buildOc c).ovf || (dot3 (ocOf c) (ocOf c)).ovf || (fxMul (ocOf c).z c.rayDz).ovf || (fxMul sphR sphR).ovf ||
        (sub16 (buildGlobals c).val.oc2 (buildGlobals c).val.r2c).ovf ||
        ((List.range 64).any fun i => (sphP2Entry c (buildGlobals c).val.ocd i).ovf) ||
        ((List.range 64).any fun i => (sphTEntry c (buildGlobals c).val.ocd
          (sub16 (buildGlobals c).val.oc2 (buildGlobals c).val.r2c).val i).ovf)) := by
  simp [buildGlobals, buildSquares, Function.comp_def, sphN, ocOf, Bool.or_assoc]

/-! ## The per-view state -/

/-- The rows of the ground table. -/
def rowsOf (c : Config) (g : GlobalTables) : List GroundRow :=
  (List.range c.h).map fun y => (groundRow c (elem16 g.dy y) g.dz).val

theorem buildView_light (c : Config) (g : GlobalTables) (v : ViewId) :
    (buildView c g v).val.light = (selectLight v).val := by simp [buildView]

theorem buildView_sx (c : Config) (g : GlobalTables) (v : ViewId) :
    (buildView c g v).val.sx =
      (shadowCoord sphC.x (selectLight v).val.x (shadowScale (selectLight v).val).val).val := by simp [buildView]

theorem buildView_sz (c : Config) (g : GlobalTables) (v : ViewId) :
    (buildView c g v).val.sz =
      (shadowCoord sphC.z (selectLight v).val.z (shadowScale (selectLight v).val).val).val := by simp [buildView]

theorem buildView_ghit (c : Config) (g : GlobalTables) (v : ViewId) :
    (buildView c g v).val.ghit = (rowsOf c g).map GroundRow.hit := by
  simp [buildView, rowsOf, Function.comp_def]

theorem buildView_gt (c : Config) (g : GlobalTables) (v : ViewId) :
    (buildView c g v).val.gt = (rowsOf c g).map GroundRow.t := by
  simp [buildView, rowsOf, Function.comp_def]

theorem buildView_gz (c : Config) (g : GlobalTables) (v : ViewId) :
    (buildView c g v).val.gz = (rowsOf c g).map GroundRow.z := by
  simp [buildView, rowsOf, Function.comp_def]

theorem buildView_sdz2 (c : Config) (g : GlobalTables) (v : ViewId) :
    (buildView c g v).val.sdz2 =
      (rowsOf c g).map fun r => (shadowRow (buildView c g v).val.sz r).val := by
  simp [buildView, rowsOf, Function.comp_def]

/-- The light and the shadow centre of either view are computed without overflow. -/
theorem shadowCentre_ovf (v : ViewId) :
    (selectLight v).ovf = false ∧ (shadowScale (selectLight v).val).ovf = false ∧
    (shadowCoord sphC.x (selectLight v).val.x (shadowScale (selectLight v).val).val).ovf = false ∧
    (shadowCoord sphC.z (selectLight v).val.z (shadowScale (selectLight v).val).val).ovf = false := by
  cases v <;> decide

/-- SETVIEW overflows exactly where a ground row or its shadow term does. -/
theorem buildView_ovf (c : Config) (g : GlobalTables) (v : ViewId) :
    (buildView c g v).ovf =
      (((List.range c.h).any fun y => (groundRow c (elem16 g.dy y) g.dz).ovf) ||
        (rowsOf c g).any fun r => (shadowRow (buildView c g v).val.sz r).ovf) := by
  obtain ⟨h1, h2, h3, h4⟩ := shadowCentre_ovf v
  rw [buildView_sz]
  simp [buildView, rowsOf, h1, h2, h3, h4, Function.comp_def]

/-- Row `y` of the ground table. -/
theorem rowsOf_getD {α : Type} (f : GroundRow → α) (c : Config) (g : GlobalTables) (y : Nat) (d : α) (h : y < c.h) :
    ((rowsOf c g).map f).getD y d = f (groundRow c (elem16 g.dy y) g.dz).val := by
  rw [rowsOf, List.map_map, getD_range _ _ _ _ h]; rfl

/-- A row of the ground table with a ground hit has 0 < t ≤ GND_T_MAX (rule R133). -/
theorem groundRow_hit {c : Config} {dy dz : I16} (h : (groundRow c dy dz).val.hit = true) :
    0 < (groundRow c dy dz).val.t.toInt ∧ (groundRow c dy dz).val.t.toInt ≤ (c.gndTMax : Int) := by
  have hm := c.shading.2.1
  unfold groundRow at h ⊢
  split at h
  · rename_i hc
    rw [if_pos hc]
    simp only [Flagged.bind_val, Flagged.map_val]
    rw [toInt_ofInt16 (by omega) (by omega)]
    exact ⟨hc.2.1, hc.2.2⟩
  · simp at h

/-- A row without a ground hit is zero (rules R35, R133). -/
theorem groundRow_miss {c : Config} {dy dz : I16} (h : (groundRow c dy dz).val.hit = false) :
    groundRow c dy dz = .pure ⟨false, 0, 0⟩ := by
  unfold groundRow at h ⊢
  split at h
  · simp at h
  · rename_i hc; rw [if_neg hc]

end Sys2Proof.Machine
end

