-- ==== Sys2Proof/Tests/Slice0.lean ====
section
/-! SUPPORT. The author's own tests: ill-formed terms that `wellFormed` refuses, words written out from the encoding
tables of 30_encoding.md, one-step vectors of 95_test_vectors.md, and one witness per statement that its hypotheses can
be met. Every expected number is the spec's. -/

namespace Sys2Proof.Machine.Tests

open Sys2Proof Sys2Proof.Machine

-- One test at a time: the kernel evaluations need little memory then.
set_option Elab.async false

/-! ## Helpers -/

/-- After INIT and SETVIEW v from reset, with the default configuration. -/
def ready (v : ViewId) : State :=
  { State.reset with
    status := match v with | .front => 3 | .back => 7
    tab := (buildGlobals Config.default).val
    view := (buildView Config.default (buildGlobals Config.default).val v).val }

/-- R0, R1, R2, STATUS and ERRCODE of a next state. -/
def regs : Result → List Nat
  | .next t => [t.r0.toNat, t.r1.toNat, t.r2.toNat, t.status.toNat, t.errcode.toNat]
  | .fault _ => []
  | .refused _ => []

/-- Some bytes of a space of a next state. -/
def bytes (sp : Space) (as : List Nat) : Result → List (Option Byte)
  | .next t => as.map (t.byte sp)
  | .fault _ => []
  | .refused _ => []

/-- The accumulator, STATUS of a next state. -/
def accOf : Result → List Nat
  | .next t => [t.acc.toNat, t.status.toNat]
  | .fault _ => []
  | .refused _ => []

/-- The state in which one word from the host comes next. -/
def present (cw : CmdWord) : State := { State.reset with events := [.command cw] }

/-! ## Ill-formed terms are refused, their neighbours at the edge are not -/

theorem test_wellformed_raydir_x :
    Instr.wellFormed (.raydir 256 0) = false ∧ Instr.wellFormed (.raydir 255 255) = true := by decide
theorem test_wellformed_raydir_y :
    Instr.wellFormed (.raydir 0 256) = false ∧ Instr.wellFormed (.raydir 0 255) = true := by decide
theorem test_wellformed_gndrow :
    Instr.wellFormed (.gndrow 256) = false ∧ Instr.wellFormed (.gndrow 255) = true := by decide
theorem test_wellformed_isect_x :
    Instr.wellFormed (.isect 256 0) = false ∧ Instr.wellFormed (.isect 255 0) = true := by decide
theorem test_wellformed_isect_y :
    Instr.wellFormed (.isect 0 256) = false ∧ Instr.wellFormed (.isect 0 255) = true := by decide
theorem test_wellformed_shade_x :
    Instr.wellFormed (.shade 256 0) = false ∧ Instr.wellFormed (.shade 255 0) = true := by decide
theorem test_wellformed_shade_y :
    Instr.wellFormed (.shade 0 256) = false ∧ Instr.wellFormed (.shade 0 255) = true := by decide
theorem test_wellformed_rendrow :
    Instr.wellFormed (.rendrow 256) = false ∧ Instr.wellFormed (.rendrow 255) = true := by decide
theorem test_wellformed_rendline :
    Instr.wellFormed (.rendline 256) = false ∧ Instr.wellFormed (.rendline 255) = true := by decide
theorem test_wellformed_uprow :
    Instr.wellFormed (.uprow 256) = false ∧ Instr.wellFormed (.uprow 255) = true := by decide
theorem test_wellformed_upline :
    Instr.wellFormed (.upline 256) = false ∧ Instr.wellFormed (.upline 255) = true := by decide
theorem test_wellformed_storerow :
    Instr.wellFormed (.storerow .back 256) = false ∧ Instr.wellFormed (.storerow .back 255) = true := by decide

/-! ## Decoding: a word written out for every command (rules R71 to R73, R78) -/

theorem test_decode_nop :
    decode 0x0000000000 = .ok (.nop) ∧ encode (.nop) = 0x0000000000 := by decide
theorem test_decode_fxint :
    decode 0x01FF7F0000 = .ok (.fxint (-129)) ∧ encode (.fxint (-129)) = 0x01FF7F0000 := by decide
theorem test_decode_fxtrunc :
    decode 0x02FEFF0000 = .ok (.fxtrunc (-257)) ∧ encode (.fxtrunc (-257)) = 0x02FEFF0000 := by decide
theorem test_decode_fxmul :
    decode 0x038000FF00 = .ok (.fxmul (-32768) (-256)) ∧ encode (.fxmul (-32768) (-256)) = 0x038000FF00 := by decide
theorem test_decode_macclr :
    decode 0x0400000000 = .ok (.macclr) ∧ encode (.macclr) = 0x0400000000 := by decide
theorem test_decode_mac :
    decode 0x05FF800080 = .ok (.mac (-128) 128) ∧ encode (.mac (-128) 128) = 0x05FF800080 := by decide
theorem test_decode_macrd :
    decode 0x0600000000 = .ok (.macrd) ∧ encode (.macrd) = 0x0600000000 := by decide
theorem test_decode_init :
    decode 0x1000000000 = .ok (.init) ∧ encode (.init) = 0x1000000000 := by decide
theorem test_decode_setview :
    decode 0x1100000001 = .ok (.setview .back) ∧ encode (.setview .back) = 0x1100000001 := by decide
theorem test_decode_sphlut :
    decode 0x1200010000 = .ok (.sphlut 65536) ∧ encode (.sphlut 65536) = 0x1200010000 := by decide
theorem test_decode_shdlut :
    decode 0x13000DCB40 = .ok (.shdlut 904000) ∧ encode (.shdlut 904000) = 0x13000DCB40 := by decide
theorem test_decode_raydir :
    decode 0x14003F0000 = .ok (.raydir 63 0) ∧ encode (.raydir 63 0) = 0x14003F0000 := by decide
theorem test_decode_gndrow :
    decode 0x1500000022 = .ok (.gndrow 34) ∧ encode (.gndrow 34) = 0x1500000022 := by decide
theorem test_decode_isect :
    decode 0x200020000A = .ok (.isect 32 10) ∧ encode (.isect 32 10) = 0x200020000A := by decide
theorem test_decode_shade :
    decode 0x2100000040 = .ok (.shade 0 64) ∧ encode (.shade 0 64) = 0x2100000040 := by decide
theorem test_decode_dither :
    decode 0x2200C00006 = .ok (.dither 192 false true .ground) ∧ encode (.dither 192 false true .ground) = 0x2200C00006 := by decide
theorem test_decode_tilepack :
    decode 0x233FAA0000 = .ok (.tilepack 0x3FAA) ∧ encode (.tilepack 0x3FAA) = 0x233FAA0000 := by decide
theorem test_decode_rendrow :
    decode 0x3000000008 = .ok (.rendrow 8) ∧ encode (.rendrow 8) = 0x3000000008 := by decide
theorem test_decode_rendline :
    decode 0x3100000040 = .ok (.rendline 64) ∧ encode (.rendline 64) = 0x3100000040 := by decide
theorem test_decode_uprow :
    decode 0x3200000008 = .ok (.uprow 8) ∧ encode (.uprow 8) = 0x3200000008 := by decide
theorem test_decode_upline :
    decode 0x33000000FF = .ok (.upline 255) ∧ encode (.upline 255) = 0x33000000FF := by decide
theorem test_decode_storerow :
    decode 0x3400010008 = .ok (.storerow .back 8) ∧ encode (.storerow .back 8) = 0x3400010008 := by decide
theorem test_decode_loadscene :
    decode 0x3500000000 = .ok (.loadscene .front) ∧ encode (.loadscene .front) = 0x3500000000 := by decide

/-- Rule R76 and V13: reserved opcodes at the edges of each gap. -/
theorem test_decode_reserved_opcodes :
    decode 0x0700000000 = .error .reservedOpcode ∧ decode 0x0F00000000 = .error .reservedOpcode ∧
    decode 0x1600000000 = .error .reservedOpcode ∧ decode 0x2400000000 = .error .reservedOpcode ∧
    decode 0x3600000000 = .error .reservedOpcode ∧ decode 0xFFFFFFFFFF = .error .reservedOpcode := by decide

/-- V13: reserved bits. -/
theorem test_decode_reserved_bits :
    decode 0x0000000001 = .error .reservedBit ∧ decode 0x1100000002 = .error .reservedBit ∧
    decode 0x1100010000 = .error .reservedBit ∧ decode 0x3400020000 = .error .reservedBit ∧
    decode 0x3000000100 = .error .reservedBit ∧ decode 0x2101400040 = .error .reservedBit ∧
    decode 0x2200000008 = .error .reservedBit ∧ decode 0x0100020001 = .error .reservedBit := by decide

theorem test_table_word : decodeTableWord 40 0x2100200020 = some (.shade 32 32) ∧
    decodeTableWord 40 0x0700000000 = none := by decide

/-! ## One step per command, numbers from 95_test_vectors.md -/

theorem test_nop_does_nothing :
    regs (exec .nop State.reset) = [0, 0, 0, 0, 0] := by decide +kernel
theorem test_fxint_overflow_wraps :
    regs (exec (.fxint (-129)) State.reset) = [0x7F00, 0, 0, 8, 0] := by decide +kernel
theorem test_fxint_least_in_range :
    regs (exec (.fxint (-128)) State.reset) = [0x8000, 0, 0, 0, 0] := by decide +kernel
theorem test_fxtrunc_rounds_down :
    regs (exec (.fxtrunc (-257)) State.reset) = [0xFFFE, 0, 0, 0, 0] := by decide +kernel
theorem test_fxmul_rounds_down :
    regs (exec (.fxmul (-128) 732) State.reset) = [0xFE92, 0, 0, 0, 0] := by decide +kernel
theorem test_fxmul_overflow_wraps :
    regs (exec (.fxmul 2897 2897) State.reset) = [0x800F, 0, 0, 8, 0] := by decide +kernel
theorem test_macclr_clears :
    accOf (exec .macclr { State.reset with acc := 5 }) = [0, 0] := by decide +kernel
/-- Rule R252: MAC and MACRD need a written ACC, which MACCLR provides. -/
theorem test_mac_needs_macclr :
    duty State.reset (.mac 1 1) = false ∧ duty State.reset .macrd = false ∧ duty State.reset .macclr = true ∧
    duty State.reset.clearAcc (.mac 1 1) = true ∧ exec .macclr State.reset = .next State.reset.clearAcc :=
  ⟨by decide, by decide, by decide, by decide, rfl⟩
theorem test_mac_adds :
    accOf (exec (.mac 179 179) { State.reset with acc := 0x4000 }) = [0xBD29, 0] := by decide +kernel
theorem test_mac_overflow_wraps :
    accOf (exec (.mac (-32768) (-32768)) { State.reset with acc := 0x40000000 }) = [0x80000000, 8] := by decide +kernel
theorem test_macrd_rounds_down :
    regs (exec .macrd { State.reset with acc := 0xFFFF5BDF }) = [0xFF5B, 0, 0, 0, 0] := by decide +kernel
theorem test_macrd_overflow_wraps :
    regs (exec .macrd { State.reset with acc := 0x80000000 }) = [0, 0, 0, 8, 0] := by decide +kernel
theorem test_init_status :
    regs (exec .init State.reset) = [0, 0, 0, 1, 0] := by decide +kernel
theorem test_init_keeps_view_bits :
    regs (exec .init { State.reset with status := 7 }) = [0, 0, 0, 7, 0] := by decide +kernel
theorem test_setview_back :
    regs (exec (.setview .back) (ready .front)) = [0, 0, 0, 7, 0] := by decide +kernel
theorem test_setview_front :
    regs (exec (.setview .front) (ready .back)) = [0, 0, 0, 3, 0] := by decide +kernel
theorem test_sphlut_tangent_bucket :
    regs (exec (.sphlut 288) (ready .front)) = [0x0555, 0x2000, 32, 3, 0] := by decide +kernel
theorem test_sphlut_clamps_high :
    regs (exec (.sphlut 320) (ready .front)) = [0x7FFF, 0x1CE3, 63, 3, 0] := by decide +kernel
theorem test_shdlut_ramp :
    regs (exec (.shdlut 1023) (ready .front)) = [249, 63, 0, 3, 0] := by decide +kernel
theorem test_shdlut_clamps_low :
    regs (exec (.shdlut (-1)) (ready .front)) = [0, 0, 0, 3, 0] := by decide +kernel
theorem test_raydir_corner :
    regs (exec (.raydir 0 63) (ready .front)) = [0xFF80, 0xFF84, 0x0100, 3, 0] := by decide +kernel
theorem test_gndrow_first_hit :
    regs (exec (.gndrow 34) (ready .front)) = [1, 0x4000, 0x4000, 3, 0] := by decide +kernel
theorem test_gndrow_out_of_range :
    regs (exec (.gndrow 64) (ready .front)) = [0, 0, 0, 0x13, 2] := by decide +kernel
theorem test_isect_sphere :
    regs (exec (.isect 32 10) (ready .back)) = [1, 0x04EC, 30, 7, 0] := by decide +kernel
theorem test_isect_ground :
    regs (exec (.isect 32 55) (ready .front)) = [2, 0x0590, 33, 3, 0] := by decide +kernel
theorem test_shade_sphere :
    regs (exec (.shade 16 16) (ready .front)) = [1, 178, 1, 3, 0] := by decide +kernel
theorem test_shade_ground :
    regs (exec (.shade 32 55) (ready .front)) = [0, 170, 2, 3, 0] := by decide +kernel
theorem test_dither_above :
    regs (exec (.dither 193 false true .ground) State.reset) = [2, 0, 0, 0, 0] := by decide +kernel
theorem test_dither_equal_is_dark :
    regs (exec (.dither 64 true true .sphere) State.reset) = [0, 0, 0, 0, 0] := by decide +kernel
theorem test_tilepack_planes :
    regs (exec (.tilepack 0x3FAA) State.reset) = [0x70, 0x7F, 0, 0, 0] := by decide +kernel
theorem test_rendrow_tile :
    bytes .rowbuf [36, 37, 38, 39, 40, 41, 42, 43] (exec (.rendrow 1) (ready .front)) =
      [some 0xFF, some 0xFF, some 0xFF, some 0xFE, some 0xFF, some 0xF8, some 0xF5, some 0xE0] := by decide +kernel
theorem test_rendrow_out_of_range :
    regs (exec (.rendrow 8) State.reset) = [0, 0, 0, 0x10, 2] := by decide +kernel
theorem test_rendline_writes_its_bytes :
    bytes .rowbuf [0, 1, 2, 15, 16, 17, 113, 114] (exec (.rendline 0) (ready .front)) =
      [some 0xFF, some 0xFF, none, none, some 0xFF, some 0xFF, some 0xFF, none] := by decide +kernel
theorem test_uprow_copies :
    bytes .disp [127, 128, 130, 255] (exec (.uprow 1) { State.reset with rowbuf := [(0, 7), (127, 9)] }) =
      [none, some 7, none, some 9] := by decide +kernel
theorem test_upline_copies_its_bytes :
    bytes .disp [146, 147, 148] (exec (.upline 9) { State.reset with rowbuf := [(18, 1), (19, 2), (20, 3)] }) =
      [some 1, some 2, none] := by decide +kernel
theorem test_storerow_copies :
    bytes (.cache .back) [896, 1023, 0] (exec (.storerow .back 7) { State.reset with rowbuf := [(0, 7), (127, 9)] }) =
      [some 7, some 9, none] := by decide +kernel
theorem test_loadscene_copies :
    bytes .disp [0, 1023, 5] (exec (.loadscene .front) { State.reset with cache0 := [(0, 7), (1023, 9)] }) =
      [some 7, some 9, none] := by decide +kernel

/-- Rule R55: the second tile of tile row 1 lies after the first, TILE_BASE tiles on. -/
theorem test_layout : dispAddr Config.default 9 3 = 147 ∧ rowbufAddr 7 15 = 127 ∧ cacheAddr 63 15 = 1023 := by decide

/-- V13: UPROW 8 raises its error though vblank is 0. -/
theorem test_range_before_wait :
    regs (exec (.uprow 8) { State.reset with vblank := false }) = [0, 0, 0, 0x10, 2] := by decide +kernel

/-- V7: the comparison is signed, and a tie is ground. -/
theorem test_select : selectHit true 0x0500 true 0x0500 = (.ground, 0x0500) ∧
    selectHit true 0xFFFF true 0x0001 = (.sphere, 0xFFFF) ∧ selectHit false 0x7FFF false 0 = (.sky, 0) := by decide

/-- V13: a reserved opcode, through a whole step. -/
theorem test_step_illegal : regs (step (State.reset.withFetchWord 40 0x0700000000)) = [0, 0, 0, 0x10, 1] := by
  decide +kernel

/-- Through a whole step: FXMUL −1, −1 has no reserved bits. -/
theorem test_step_runs : regs (step (State.reset.withFetchWord 40 0x03FFFFFFFF)) = [0, 0, 0, 0, 0] := by decide +kernel

/-- The reset memory of every space has the canonical form. -/
theorem test_reset_memory_canonical : State.reset.rowbuf.wf = true ∧ State.reset.cache0.wf = true ∧
    State.reset.cache1.wf = true ∧ State.reset.disp.wf = true := by decide

/-! ## Witnesses: the hypotheses of each statement can be met, at the edges of their ranges -/

theorem test_witness_DecodeOfEncodeIsIdentity :
    ∃ i j : Instr, i.wellFormed = true ∧ j.wellFormed = true ∧ i ≠ j :=
  ⟨.raydir 255 255, .raydir 0 0, by decide⟩
theorem test_witness_EncodeOfDecodeIsIdentity :
    ∃ (cw : CmdWord) (i : Instr), decode cw = .ok i :=
  ⟨0x3400010007, .storerow .back 7, by decide⟩
theorem test_witness_StepRunsTheDecodedCommand :
    ∃ (s : State) (cw : CmdWord) (es : List HostEvent) (i : Instr),
      s.held = none ∧ s.events = .command cw :: es ∧ decode cw = .ok i :=
  ⟨present 0x2100200020, 0x2100200020, [], .shade 32 32, rfl, rfl, by decide⟩
theorem test_witness_IllegalWordHasOnlyErrorOne :
    ∃ (s : State) (cw : CmdWord) (es : List HostEvent) (e : DecodeError),
      s.held = none ∧ s.events = .command cw :: es ∧ decode cw = .error e :=
  ⟨present 0x0000000001, 0x0000000001, [], .reservedBit, rfl, rfl, by decide⟩
/-- Both clauses: one state that waits on, one that runs. -/
theorem test_witness_HeldCommandWaitsThenRuns :
    ∃ (s s' : State) (i : Instr), s.held = some i ∧ s'.held = some i ∧ waitsForVblank i = true ∧
      inRange s.cfg i = true ∧ inRange s'.cfg i = true ∧ s.events.head? ≠ some .reset ∧
      s'.events.head? ≠ some .reset ∧ s.vblankNext.headD s.vblank = false ∧
      s'.vblankNext.headD s'.vblank = true :=
  ⟨{ State.reset with held := some (.uprow 7), vblank := false },
   { State.reset with held := some (.uprow 7), vblank := false, vblankNext := [true] }, .uprow 7,
   by decide +kernel⟩
theorem test_witness_ResetClearsFlagsKeepsDisplay :
    ∃ (s : State) (es : List HostEvent), s.events = .reset :: es ∧ s.status ≠ 0 :=
  ⟨{ ready .back with events := [.reset] }, [], rfl, by decide⟩
theorem test_witness_RangeErrorHasNoOtherEffect :
    ∃ (s : State), inRange s.cfg (.raydir 64 0) = false ∧ inRange s.cfg (.gndrow 64) = false ∧
      inRange s.cfg (.uprow 8) = false ∧ inRange s.cfg (.raydir 63 63) = true ∧ inRange s.cfg (.uprow 7) = true :=
  ⟨State.reset, by decide⟩
theorem test_witness_StickyFlagsStaySet :
    ∃ (i : Instr) (s t : State), exec i s = .next t ∧ s.initDone = true ∧ s.viewValid = true ∧ s.ovf = true ∧ s.err = true :=
  ⟨.fxint 1, { ready .front with status := 0x1B, errcode := 1 }, _, rfl, by decide⟩
theorem test_witness_NoCommandReadsStatus :
    ∃ (i : Instr) (s t : State) (st ec : BitVec 16), exec i s = .next t ∧ s.status ≠ st ∧ s.errcode ≠ ec :=
  ⟨.macrd, State.reset, _, 0x001F, 2, rfl, by decide⟩
theorem test_witness_OvfRaisedOnlyByNarrowingCommands :
    ∃ (i : Instr) (s t : State), exec i s = .next t ∧ s.ovf = false ∧ t.ovf = true :=
  ⟨.fxint 128, State.reset, _, rfl, by decide⟩
theorem test_witness_TablesAndAccWrittenOnlyByTheirCommands :
    ∃ (i : Instr) (s t : State), exec i s = .next t ∧ i ≠ .init ∧ (∀ v, i ≠ .setview v) ∧ i ≠ .macclr ∧
      ∀ a b, i ≠ .mac a b :=
  ⟨.macrd, State.reset, _, rfl, by decide, fun _ => by simp, by decide, fun _ _ => by simp⟩
theorem test_witness_ResultRegistersFrame :
    ∃ (i : Instr) (s t : State), exec i s = .next t ∧ s.r2 ≠ 0 :=
  ⟨.tilepack 0x1B1B, { State.reset with r2 := 5 }, _, rfl, by decide⟩
theorem test_witness_ByteMemoriesWrittenOnlyByTheirCommands :
    ∃ (i : Instr) (s t : State), exec i s = .next t ∧ (∀ tr, i ≠ .rendrow tr) ∧ (∀ y, i ≠ .rendline y) ∧
      (∀ tr, i ≠ .storerow .back tr) ∧ waitsForVblank i = false :=
  ⟨.storerow .front 7, State.reset, _, rfl, fun _ => by simp, fun _ => by simp, fun _ => by simp, rfl⟩
theorem test_witness_DisplayWrittenOnlyInOwnedBlock :
    ∃ (i : Instr) (s t : State) (a : Nat), exec i s = .next t ∧
      (a < s.cfg.tileBase * 16 ∨ (s.cfg.tileBase + (s.cfg.w / 8) * (s.cfg.h / 8)) * 16 ≤ a) :=
  ⟨.uprow 7, State.reset, _, 1024, rfl, .inr (by decide)⟩
/-- The other clause: a configuration whose owned block does not begin at 0. -/
theorem test_witness_DisplayBelowOwnedBlock :
    ∃ (c : Config) (a : Nat), a < c.tileBase * 16 :=
  ⟨⟨{ Params.default with tileBase := 5 }, by decide⟩, 79, by decide⟩
theorem test_witness_DisplayIsNeverRead :
    ∃ (i : Instr) (s t : State) (d : Memory), exec i s = .next t ∧ s.disp ≠ d :=
  ⟨.uprow 0, State.reset, _, [(0, 1)], rfl, by decide⟩
theorem test_witness_InputsAreNeverWritten :
    ∃ (i : Instr) (s t : State), exec i s = .next t ∧ s.events ≠ [] ∧ s.vblankNext ≠ [] :=
  ⟨.uprow 0, { State.reset with vblankNext := [false], events := [.reset] }, _, rfl, by decide⟩
/-- A state with flags, a byte, an error and a held command that meets the invariant. -/
def busy : State :=
  { ready .back with status := 0x17, errcode := 2, rowbuf := [(127, 1)], held := some (.uprow 7), vblank := false }

theorem test_witness_StepKeepsTheInvariant :
    ∃ s t : State, s.Inv ∧ step s = .next t :=
  ⟨busy, _, ⟨by intro sp; rcases sp with _ | (_ | _) | _ <;> decide, by intro sp; rcases sp with _ | (_ | _) | _ <;> decide,
    by unfold State.tablesSized; decide +kernel, by unfold State.flagsLegal; decide +kernel,
    by intro i h; cases h; decide⟩, rfl⟩
theorem test_witness_StepKeepsTheTablesCurrent :
    ∃ s t : State, s.globalsCurrent ∧ s.viewCurrent ∧ s.initDone = true ∧ s.viewValid = true ∧ step s = .next t :=
  ⟨ready .back, _, fun _ => rfl,
    fun _ => ⟨rfl, rfl, rfl, by unfold ViewTables.rowsConsistent; decide +kernel, (buildGlobals Config.default).val, rfl⟩,
    by decide, by decide, rfl⟩
theorem test_witness_NarrowKeepsLowSixteenBits :
    ∃ v w : Int, (-32768 ≤ v ∧ v ≤ 32767) ∧ (w < -32768 ∨ 32767 < w) :=
  ⟨-32768, 32768, by decide, by decide⟩
theorem test_witness_FixedMultiplyFloors :
    ∃ a b c d : I16, (fxMul a b).ovf = false ∧ a.toInt * b.toInt = c.toInt * d.toInt ∧ a ≠ c :=
  ⟨2896, 2896, -2896, -2896, by decide⟩
/-- INIT done, ACC and the per-view state unwritten. -/
theorem test_witness_PremisedCommandsReadNoUnwrittenState :
    ∃ (i : Instr) (s s' t : State), duty s i = true ∧ s.sameWritten s' ∧ exec i s = .next t ∧
      s.acc ≠ s'.acc ∧ s.view.sx ≠ s'.view.sx ∧ s.r0 ≠ s'.r0 :=
  ⟨.raydir 63 0, { ready .front with status := 1 },
    { ready .front with status := 1, acc := 9, r0 := 7, view := { (ready .front).view with sx := 5 } }, _, by decide +kernel,
    ⟨rfl, by decide, by decide +kernel, by decide⟩, rfl, by decide +kernel⟩
/-- ACC written, the global tables not. -/
theorem test_witness_PremisedCommandsReadNoUnwrittenState_acc :
    ∃ (s s' t : State), duty s .macrd = true ∧ s.sameWritten s' ∧ exec .macrd s = .next t ∧ s.tab.dz ≠ s'.tab.dz :=
  ⟨State.reset.clearAcc, { State.reset.clearAcc with tab := { State.reset.tab with dz := 5 } }, _, by decide,
    ⟨rfl, by decide, by decide, by decide⟩, rfl, by decide +kernel⟩
theorem test_witness_MultiplyAccumulateLaws :
    ∃ m n a b c : I16, -128 ≤ m.toInt ∧ m.toInt ≤ 127 ∧ -128 ≤ n.toInt ∧ n.toInt ≤ 127 ∧ m ≠ n ∧
      a ≠ 0x8000 ∧ a.toInt * b.toInt % 256 = 0 ∧ a.toInt * c.toInt % 256 ≠ 0 :=
  ⟨-128, 127, 128, 732, 1, by decide⟩
theorem test_witness_InitIsIdempotent :
    ∃ s s' : State, s.cfg = s'.cfg ∧ s ≠ s' :=
  ⟨State.reset, { State.reset with r0 := 1 }, rfl, by decide⟩
theorem test_witness_SetviewForgetsEarlierViews :
    ∃ s s' : State, s.cfg = s'.cfg ∧ s.tab = s'.tab ∧ s.view ≠ s'.view :=
  ⟨ready .front, ready .back, rfl, rfl, by decide +kernel⟩
theorem test_witness_ShadowBrightnessIsMonotone :
    ∃ (s t : State) (d d' e : I32), exec .init s = .next t ∧ d.toInt ≤ d'.toInt ∧ d.toInt ≤ 0 ∧ 0 < s.cfg.shdR2 ∧
      s.cfg.shdR2 % 2 ^ s.cfg.shdShift = 0 ∧ (s.cfg.shdR2 : Int) ≤ e.toInt :=
  ⟨State.reset, _, 0, 1, 1024, rfl, by decide⟩
theorem test_witness_TableReadResults :
    ∃ (s : State), (0 < s.cfg.w ∧ 63 < s.cfg.w) ∧ 0 < s.cfg.h ∧ 63 < s.cfg.h :=
  ⟨ready .front, by decide⟩
theorem test_witness_IsectResult :
    ∃ (x y : Nat) (s : State), x < s.cfg.w ∧ y < s.cfg.h ∧ x + 1 = s.cfg.w ∧ y + 1 = s.cfg.h :=
  ⟨63, 63, ready .front, by decide⟩
theorem test_witness_GeometryDoesNotDependOnTheView :
    ∃ (x y : Nat) (s : State), x < s.cfg.w ∧ y < s.cfg.h :=
  ⟨63, 63, ready .front, by decide⟩
/-- One pixel of each surface. -/
theorem test_witness_ShadeResult :
    ∃ (s : State), (63 < s.cfg.w ∧ 63 < s.cfg.h) ∧ (intersect s.cfg s.tab s.view 0 0).val.kind = .sky ∧
      (intersect s.cfg s.tab s.view 32 32).val.kind = .sphere ∧ (intersect s.cfg s.tab s.view 63 63).val.kind = .ground :=
  ⟨ready .front, by decide +kernel⟩
theorem test_witness_ShadeIsPure :
    ∃ (x y : Nat) (s s' t : State), x < s.cfg.w ∧ y < s.cfg.h ∧ s'.cfg = s.cfg ∧ s'.tab = s.tab ∧ s'.view = s.view ∧
      s ≠ s' ∧ exec (.shade x y) s = .next t :=
  ⟨63, 63, ready .front, { ready .front with r1 := 9, status := 0x1F }, _, by decide, by decide, rfl, rfl, rfl, by decide +kernel, rfl⟩

/-- The front view's tables with x and z direction components far outside the scene's range. -/
def steep : State :=
  { ready .front with
    tab := { (ready .front).tab with dz := 0x7FFF, dx := List.replicate 64 0x7FFF } }

/-- Rule R178: OVF on a sphere pixel through t·d / 256 alone, and on a ground pixel through GT·DX / 256 alone: ISECT
raises none there, and neither product fits 16 bits. -/
theorem test_witness_ShadeResult_overflow :
    regs (exec (.isect 32 32) steep) = [1, 1024, 0, 3, 0] ∧ (1024 : Int) * 32767 / 256 = 131068 ∧
      (regs (exec (.shade 32 32) steep)).drop 2 = [1, 0x0B, 0] ∧
      regs (exec (.isect 32 55) steep) = [2, 1424, 33, 3, 0] ∧ (1424 : Int) * 32767 / 256 = 182266 ∧
      (regs (exec (.shade 32 55) steep)).drop 2 = [2, 0x0B, 0] :=
  by decide +kernel
/-- The verdicts that a sphere pixel can reach. -/
theorem test_witness_SphereBrightnessIsLambert_overflow :
    (∃ t d : I16, ¬ fits16 (t.toInt * d.toInt / 256)) ∧
      (∃ p q : I16, fits16 p.toInt ∧ ¬ fits16 (p.toInt - q.toInt)) ∧ (∃ n l : I16, fits32 (n.toInt * l.toInt) ∧
        ¬ fits16 (n.toInt * l.toInt / 256)) :=
  ⟨⟨1024, 0x7FFF, by decide⟩, ⟨-32768, 1536, by decide⟩, ⟨16384, 0x7FFF, by decide⟩⟩
theorem test_witness_RendlineResult :
    ∃ (y : Nat) (s : State), y < s.cfg.h :=
  ⟨63, ready .front, by decide⟩
theorem test_witness_RendrowResult :
    ∃ (tr : Nat) (s : State), tr < s.cfg.h / 8 :=
  ⟨7, ready .front, by decide⟩
theorem test_witness_EightRendlinesEqualRendrow :
    ∃ (tr : Nat) (ys : List Nat) (s : State), tr < s.cfg.h / 8 ∧
      ys.Perm ((List.range 8).map fun r => tr * 8 + r) ∧ ys ≠ (List.range 8).map fun r => tr * 8 + r :=
  ⟨7, [63, 62, 61, 60, 59, 58, 57, 56], ready .front, by decide⟩
theorem test_witness_UprowResult :
    ∃ (tr : Nat) (s : State), tr < s.cfg.h / 8 ∧ s.vblank = true ∧ s.disp.wf = true ∧ s.disp ≠ [] :=
  ⟨7, { State.reset with disp := [(0, 1), (5, 2)] }, by decide⟩
theorem test_witness_UplineResult :
    ∃ (y : Nat) (s : State), y < s.cfg.h ∧ s.vblank = true ∧ s.disp.wf = true :=
  ⟨63, State.reset, by decide⟩
theorem test_witness_StorerowResult :
    ∃ (v : ViewId) (tr : Nat) (s : State), tr < s.cfg.h / 8 ∧ (s.mem (.cache v)).wf = true ∧ s.vblank = false :=
  ⟨.back, 7, { State.reset with vblank := false }, by decide⟩
theorem test_witness_LoadsceneResult :
    ∃ (v : ViewId) (s : State), s.vblank = true ∧ s.disp.wf = true ∧ (s.mem (.cache v)).wf = true :=
  ⟨.back, State.reset, by decide⟩
theorem test_witness_OnlyCopyCommandsWaitForVblank :
    ∃ (i j : Instr) (s t : State), waitsForVblank i = true ∧ inRange s.cfg i = true ∧ s.vblank = false ∧
      waitsForVblank j = false ∧ exec j s = .next t :=
  ⟨.upline 63, .storerow .back 7, { State.reset with vblank := false }, _, by decide, by decide, by decide, rfl, rfl⟩
theorem test_witness_CacheRoundTrip :
    ∃ (v : ViewId) (tr : Nat) (s : State), tr < s.cfg.h / 8 ∧ s.vblank = true ∧ s.disp.wf = true ∧
      (s.mem (.cache v)).wf = true :=
  ⟨.back, 7, ready .back, by decide +kernel⟩
theorem test_witness_PrerenderPathsAgree :
    ∃ s : State, s.vblank = true ∧ s.Inv :=
  ⟨ready .back, rfl, by intro sp; rcases sp with _ | (_ | _) | _ <;> rfl, by intro sp; rcases sp with _ | (_ | _) | _ <;> rfl,
    by unfold State.tablesSized; decide +kernel, by unfold State.flagsLegal; decide +kernel,
    by intro i h; cases h⟩
theorem test_witness_DefaultTablesNeverOverflow :
    ∃ s t : State, s.cfg = Config.default ∧ exec .init s = .next t :=
  ⟨State.reset, _, rfl, rfl⟩
theorem test_witness_DefaultPixelsNeverOverflow :
    ∃ (s t u : State) (v : ViewId) (x y : Nat), s.cfg = Config.default ∧ exec .init s = .next t ∧
      exec (.setview v) t = .next u ∧ x < 64 ∧ y < 64 :=
  ⟨State.reset, _, _, .back, 63, 63, rfl, rfl, rfl, by decide, by decide⟩
theorem test_witness_FirstErrorWins :
    ∃ s s' : State, s.err = false ∧ s'.err = true ∧ s'.errcode = 1 :=
  ⟨State.reset, { State.reset with status := 0x10, errcode := 1 }, by decide⟩
/-- A bucket on each side of the horizon (tables T1, T2: 32 and 33), and the edges of the shadow ramp. -/
theorem test_witness_InitBuildsTheGlobalTables :
    ∃ (s : State) (oz ocd oc2 : Int), oz = 1536 - s.cfg.cam.z.toInt ∧ ocd = oz * s.cfg.rayDz.toInt / 256 ∧
      oc2 = oz * oz / 256 ∧
      0 ≤ ocd ^ 2 - (s.cfg.sphMin + 32 : Int) * (oc2 - 1024) ∧ ocd ^ 2 - (s.cfg.sphMin + 33 : Int) * (oc2 - 1024) < 0 ∧
      16 * 2 ^ s.cfg.shdShift = s.cfg.shdR2 / 4 ∧ 64 * 2 ^ s.cfg.shdShift = s.cfg.shdR2 :=
  ⟨State.reset, 1536, 1536, 9216, by decide +kernel⟩
/-- Accepted configurations in which RAY_DZ² or oc.z does not fit 16 bits: INIT sets OVF. -/
theorem test_witness_InitBuildsTheGlobalTables_overflow :
    ∃ (c d : Config), ¬ fits16 (c.rayDz.toInt * c.rayDz.toInt / 256) ∧ ¬ fits16 (1536 - d.cam.z.toInt) ∧
      regs (exec .init (State.resetOf c)) = [0, 0, 0, 9, 0] ∧ regs (exec .init (State.resetOf d)) = [0, 0, 0, 9, 0] :=
  ⟨⟨{ Params.default with rayDz := 4096 }, by decide⟩, ⟨{ Params.default with cam := ⟨0, 512, -32768⟩, rayDz := 300 }, by decide⟩,
    by decide +kernel⟩
/-- Row 34 is the first with a ground hit, at the edge of both thresholds; row 33 has none (table T3). -/
theorem test_witness_SetviewBuildsTheViewState :
    ∃ s : State, 34 < s.cfg.h ∧ (s.tab.dy.getD 34 0).toInt = -(s.cfg.gndDyMin : Int) ∧
      (131072 / 8 : Int) = s.cfg.gndTMax ∧ -(s.cfg.gndDyMin : Int) < (s.tab.dy.getD 33 0).toInt :=
  ⟨ready .front, by decide +kernel⟩
/-- Row 63 has GT 1057 (table T3), and GT·DZ / 256 does not fit 16 bits. -/
theorem test_witness_SetviewBuildsTheViewState_overflow :
    regs (exec (.setview .front) steep) = [0, 0, 0, 0x0B, 0] ∧ (1057 : Int) * 32767 / 256 = 135291 :=
  by decide +kernel
theorem test_witness_TilepackResult :
    ∃ c d : Nat, c < 8 ∧ d < 8 ∧ c = 0 ∧ d = 7 :=
  ⟨0, 7, by decide⟩

end Sys2Proof.Machine.Tests
end

section
/-! The square root of 00_scope.md rule R13 (rule R99): the bitwise search `isqrtFrom` keeps the root of `n`
between `r` and `r + 2^k`, and `isqrt` starts it with enough bits. -/

namespace Sys2Proof.Machine

/-- A search that starts with `n` between the squares of `r` and `r + 2^k` ends with `n` between the squares of its
result and of the result's successor: each bit halves the interval. -/
theorem isqrtFrom_isFloor (n k r : Nat) (hlow : r * r ≤ n) (hhigh : n < (r + 2 ^ k) * (r + 2 ^ k)) :
    isqrtFrom n k r * isqrtFrom n k r ≤ n ∧ n < (isqrtFrom n k r + 1) * (isqrtFrom n k r + 1) := by
  induction k generalizing r with
  | zero => exact ⟨hlow, hhigh⟩
  | succ k ih =>
    have halves : r + 2 ^ (k + 1) = r + 2 ^ k + 2 ^ k := by omega
    rw [isqrtFrom]
    split
    case isTrue hfits => exact ih (r + 2 ^ k) hfits (halves ▸ hhigh)
    case isFalse hbig => exact ih r hlow (Nat.lt_of_not_le hbig)

/-- The bits `isqrt` searches are enough: the root of `n` is below 2^(log2 n / 2 + 1). -/
theorem lt_sq_two_pow_half_log2 (n : Nat) : n < 2 ^ (n.log2 / 2 + 1) * 2 ^ (n.log2 / 2 + 1) :=
  calc n < 2 ^ (n.log2 + 1) := Nat.lt_log2_self
    _ ≤ 2 ^ (n.log2 / 2 + 1 + (n.log2 / 2 + 1)) := Nat.pow_le_pow_right (by decide) (by omega)
    _ = 2 ^ (n.log2 / 2 + 1) * 2 ^ (n.log2 / 2 + 1) := Nat.pow_add ..

/-- Settles O27: the search of `isqrt` starts from the interval [0, 2^(log2 n / 2 + 1)), which holds the root. -/
theorem isqrtIsFloorSquareRoot : Obligations.IsqrtIsFloorSquareRoot := fun n =>
  isqrtFrom_isFloor n (n.log2 / 2 + 1) 0 (Nat.zero_le n) (by
    simpa only [Nat.zero_add] using lt_sq_two_pow_half_log2 n)

end Sys2Proof.Machine
end

section
/-! What a command can do to the state, in eight shapes, and the state it leaves unchanged (10_state.md rule R42).
Every frame statement and every invariant below is read off these shapes. -/

namespace Sys2Proof.Machine

open Sys2Proof

/-- The byte space a command writes, if it writes one (rules R36 to R38). -/
def writtenSpace : Instr → Option Space
  | .rendrow _ | .rendline _ => some .rowbuf
  | .storerow v _ => some (.cache v)
  | .uprow _ | .upline _ | .loadscene _ => some .disp
  | .nop | .fxint _ | .fxtrunc _ | .fxmul _ _ | .macclr | .mac _ _ | .macrd | .init | .setview _ | .sphlut _ | .shdlut _
  | .raydir _ _ | .gndrow _ | .isect _ _ | .shade _ _ | .dither _ _ _ _ | .tilepack _ => none

/-- The changes a command can make: an error, a wait, or the one kind of state its family writes. -/
inductive Change (i : Instr) (s : State) : State → Prop where
  | rangeError : Change i s (s.raiseError .range)
  | held : waitsForVblank i = true → inRange s.cfg i = true → Change i s (s.hold i)
  | registers (b : Bool) (u v w : BitVec 16) : Change i s ((s.noteOvf b).setR012 u v w)
  | clearAcc : i = .macclr → Change i s s.clearAcc
  | accumulate (a b : I16) : i = .mac a b → Change i s (s.commit (macStep s.acc a b) State.setAcc)
  | tables : i = .init → Change i s (s.commit (buildGlobals s.cfg) fun g t => (t.setTab g).setInitDone)
  | view (v : ViewId) : i = .setview v →
      Change i s (s.commit (buildView s.cfg s.tab v) fun w t => (t.setView w).setViewBits v)
  | bytes (sp : Space) (b : Bool) (ws : List (Nat × Option Byte)) : writtenSpace i = some sp →
      (∀ w ∈ ws, sp.holds s.cfg w.1 = true) → Change i s ((s.noteOvf b).setMem sp ((s.mem sp).writes ws))

/-- The effect of a command that writes results is a write of the three result registers, beside OVF. -/
theorem Change.of_registers {i : Instr} {s : State} (b : Bool) (u v w : BitVec 16)
    (h : effect i s = (s.noteOvf b).setR012 u v w) : Change i s (effect i s) := h ▸ .registers b u v w

/-- A command that copies into a space makes a run of writes there. -/
theorem Change.of_copies {i : Instr} {s : State} {sp : Space} (src : Space) (ms : List (Nat × Nat))
    (hw : writtenSpace i = some sp) (hin : ∀ p ∈ ms, sp.holds s.cfg p.1 = true)
    (h : effect i s = s.setMem sp ((s.mem sp).writes (ms.map fun p => (p.1, s.byte src p.2)))) :
    Change i s (effect i s) := by
  rw [h]
  have := Change.bytes (i := i) (s := s) sp false (ms.map fun p => (p.1, s.byte src p.2)) hw
    (fun w hm => by obtain ⟨p, hp, rfl⟩ := List.mem_map.1 hm; exact hin p hp)
  rwa [State.noteOvf_false] at this

/-- An in-range command that goes on makes a change of its family's shape. -/
theorem effect_change {i : Instr} {s : State} (h : inRange s.cfg i = true) : Change i s (effect i s) := by
  cases i with
  | macclr => exact .clearAcc rfl
  | mac a b => exact .accumulate a b rfl
  | init => exact .tables rfl
  | setview v => exact .view v rfl
  | rendrow tr =>
    refine .bytes .rowbuf _ _ rfl fun w hw => ?_
    simp only [List.mem_flatMap, List.mem_map] at hw
    obtain ⟨y, -, p, hp, rfl⟩ := hw
    exact renderLineWrites_holds s.cfg s.tab s.view y p hp
  | rendline y =>
    refine .bytes .rowbuf _ _ rfl fun w hw => ?_
    simp only [List.mem_map] at hw
    obtain ⟨p, hp, rfl⟩ := hw
    exact renderLineWrites_holds s.cfg s.tab s.view y p hp
  | uprow tr => exact .of_copies _ _ rfl (fun p hp => (uprowMoves_holds (of_decide_eq_true h) p hp).1) rfl
  | upline y => exact .of_copies _ _ rfl (fun p hp => (uplineMoves_holds (of_decide_eq_true h) p hp).1) rfl
  | storerow v tr => exact .of_copies _ _ rfl (fun p hp => (storerowMoves_holds (of_decide_eq_true h) p hp).1) rfl
  | loadscene v => exact .of_copies _ _ rfl (fun p hp => (loadsceneMoves_holds v p hp).1) rfl
  | fxint _ | fxmul _ _ | macrd | isect _ _ | shade _ _ => exact .registers _ _ _ _
  | nop | fxtrunc _ | sphlut _ | shdlut _ | raydir _ _ | gndrow _ | dither _ _ _ _ | tilepack _ =>
    exact .of_registers false _ _ _ (by rw [State.noteOvf_false]; rfl)

/-- Everything a command can do to the state. -/
theorem exec_change {i : Instr} {s t : State} (h : exec i s = .next t) : Change i s t := by
  rcases exec_cases h with ⟨-, rfl⟩ | ⟨hr, hw, -, rfl⟩ | ⟨hr, -, rfl⟩
  · exact .rangeError
  · exact .held hw hr
  · exact effect_change hr

section
variable {i : Instr} {s t : State}

/-- What a command does to a byte space is a run of writes inside it, and there is one only if the space is the one
the command writes. -/
theorem exec_mem (h : exec i s = .next t) (sp : Space) :
    ∃ ws, t.mem sp = (s.mem sp).writes ws ∧
      ∀ w ∈ ws, sp.holds s.cfg w.1 = true ∧ writtenSpace i = some sp := by
  cases exec_change h with
  | bytes sp' b ws hw hin =>
    by_cases hsp : sp = sp'
    · subst hsp
      exact ⟨ws, by simp, fun w hm => ⟨hin w hm, hw⟩⟩
    · exact ⟨[], by simp [State.setMem_mem_other _ _ _ _ hsp], by simp⟩
  | rangeError | held | registers | clearAcc | accumulate | tables | view =>
    exact ⟨[], by simp [State.commit_eq], by simp⟩

/-- A space that a command does not write reads as before. -/
theorem exec_byte_of_not_written (h : exec i s = .next t) {sp : Space} (hsp : writtenSpace i ≠ some sp) (a : Nat) :
    t.byte sp a = s.byte sp a := by
  obtain ⟨ws, ht, hws⟩ := exec_mem h sp
  have : ws = [] := List.eq_nil_iff_forall_not_mem.2 fun w hw => hsp (hws w hw).2
  simp [State.byte, ht, this]

/-- The global tables and INIT_DONE are what they were, or INIT built the tables. -/
theorem exec_tab (h : exec i s = .next t) :
    (t.tab = s.tab ∧ t.initDone = s.initDone) ∨
      (i = .init ∧ t.tab = (buildGlobals s.cfg).val ∧ t.initDone = true) := by
  cases exec_change h with
  | tables hi => exact .inr ⟨hi, by simp [State.commit_eq]⟩
  | rangeError | held | registers | clearAcc | accumulate | view | bytes => exact .inl (by simp [State.commit_eq])

/-- The per-view state, VIEW and VIEW_VALID are what they were, or SETVIEW built the state of its view. -/
theorem exec_view (h : exec i s = .next t) :
    (t.view = s.view ∧ t.viewId = s.viewId ∧ t.viewValid = s.viewValid) ∨
      ∃ v, i = .setview v ∧ t.view = (buildView s.cfg s.tab v).val ∧ t.viewId = v ∧ t.viewValid = true := by
  cases exec_change h with
  | view v hi => exact .inr ⟨v, hi, by simp [State.commit_eq]⟩
  | rangeError | held | registers | clearAcc | accumulate | tables | bytes => exact .inl (by simp [State.commit_eq])

/-- No command writes an input (rules R20, R251). -/
theorem exec_inputs (h : exec i s = .next t) :
    t.cfg = s.cfg ∧ t.vblank = s.vblank ∧ t.vblankNext = s.vblankNext ∧ t.events = s.events := by
  cases exec_change h <;> simp [State.commit_eq]

theorem exec_cfg (h : exec i s = .next t) : t.cfg = s.cfg := (exec_inputs h).1

/-- A command is held after a command only if it was held before, or is the one just run, in range and waiting. -/
theorem exec_held (h : exec i s = .next t) :
    t.held = s.held ∨ (t.held = some i ∧ waitsForVblank i = true ∧ inRange s.cfg i = true) := by
  cases exec_change h with
  | held hw hr => exact .inr ⟨rfl, hw, hr⟩
  | rangeError | registers | clearAcc | accumulate | tables | view | bytes => exact .inl (by simp [State.commit_eq])

end

end Sys2Proof.Machine
end

section
/-! The invariant of a reachable state (O22, O23): each of its five parts is kept by every command, by the host's
reset and by what a step takes from the inputs. -/

namespace Sys2Proof.Machine

open Sys2Proof

/-- A step keeps what sampling vblank, taking an event, releasing the held command, a reset, an illegal word and every
command keep. -/
theorem step_keeps {P : State → Prop} (hsample : ∀ s, P s → P s.sampleVblank)
    (htake : ∀ s es, P s → P { s with events := es }) (hrelease : ∀ s, P s → P { s with held := none })
    (hreset : ∀ s, P s → P s.hostReset) (herror : ∀ s, P s → P (s.raiseError .illegal))
    (hexec : ∀ i s t, P s → exec i s = .next t → P t) {s t : State} (hs : P s) (h : step s = .next t) : P t := by
  unfold step at h
  replace hs := hsample s hs
  generalize s.sampleVblank = s at hs h
  rcases nextAction_cases s with ⟨es, -, ha⟩ | ⟨i, -, ha⟩ | ⟨cw, es, -, -, ha⟩ | ⟨-, -, ha⟩ <;> rw [ha] at h
  case inl => cases h; exact hreset _ (htake s es hs)
  case inr.inl => exact hexec i _ t (hrelease s hs) h
  case inr.inr.inl =>
    simp only [act, runWord] at h
    split at h
    · exact hexec _ _ t (htake s es hs) h
    · cases h; exact herror _ (htake s es hs)
  case inr.inr.inr => cases h; exact hs

/-! ## The five parts under a command -/

/-- A run of writes inside a space keeps a memory inside it. -/
theorem Memory.writes_within {c : Config} {sp : Space} {m : Memory} {ws : List (Nat × Option Byte)}
    (hm : m.within c sp = true) (hws : ∀ w ∈ ws, sp.holds c w.1 = true) : (m.writes ws).within c sp = true := by
  induction ws generalizing m with
  | nil => exact hm
  | cons w ws ih =>
    refine ih (List.all_eq_true.2 fun p hp => ?_) fun x hx => hws x (List.mem_cons_of_mem _ hx)
    rcases Memory.mem_write hp with hold | ⟨hnew, -⟩
    · exact List.all_eq_true.1 hm p hold
    · exact hnew ▸ hws w (List.mem_cons_self ..)

/-- INIT's tables have the sizes rules R30 to R33 give them. -/
theorem buildGlobals_sized (c : Config) :
    (buildGlobals c).val.dx.length = c.w ∧ (buildGlobals c).val.dx2.length = c.w ∧
      (buildGlobals c).val.dy.length = c.h ∧ (buildGlobals c).val.dy2.length = c.h ∧
      (buildGlobals c).val.sphT.length = 64 ∧ (buildGlobals c).val.sphP2.length = 64 ∧
      (buildGlobals c).val.shd.length = 128 := by
  simp [buildGlobals_dx, buildGlobals_dx2, buildGlobals_dy, buildGlobals_dy2, buildGlobals_sphT, buildGlobals_sphP2,
    buildGlobals_shd]

/-- SETVIEW's tables have the sizes rule R35 gives them. -/
theorem buildView_sized (c : Config) (g : GlobalTables) (v : ViewId) :
    (buildView c g v).val.ghit.length = c.h ∧ (buildView c g v).val.gt.length = c.h ∧
      (buildView c g v).val.gz.length = c.h ∧ (buildView c g v).val.sdz2.length = c.h := by
  simp [buildView_ghit, buildView_gt, buildView_gz, buildView_sdz2, rowsOf]

/-- Setting bits below the reserved ones leaves the reserved bits of STATUS 0. -/
theorem toNat_or_lt_32 {x y : BitVec 16} (hx : x.toNat < 32) (hy : y.toNat < 32) : (x ||| y).toNat < 32 := by
  rw [BitVec.toNat_or]
  exact Nat.or_lt_two_pow (n := 5) hx hy

section
variable {i : Instr} {s t : State}

theorem exec_memoriesCanonical (hs : s.memoriesCanonical) (h : exec i s = .next t) : t.memoriesCanonical := fun sp => by
  obtain ⟨ws, ht, -⟩ := exec_mem h sp
  exact ht ▸ Memory.writes_wf ws (hs sp)

theorem exec_memoriesWithin (hs : s.memoriesWithin) (h : exec i s = .next t) : t.memoriesWithin := fun sp => by
  obtain ⟨ws, ht, hws⟩ := exec_mem h sp
  rw [ht, exec_cfg h]
  exact Memory.writes_within (hs sp) fun w hw => (hws w hw).1

theorem exec_tablesSized (hs : s.tablesSized) (h : exec i s = .next t) : t.tablesSized := by
  unfold State.tablesSized at hs ⊢
  rcases exec_tab h with ⟨htab, -⟩ | ⟨-, htab, -⟩ <;> rcases exec_view h with ⟨hview, -⟩ | ⟨v, -, hview, -⟩ <;>
    simp [htab, hview, exec_cfg h, hs, buildGlobals_sized, buildView_sized]

/-- Noting an overflow leaves the reserved bits 0. -/
theorem State.noteOvf_status_lt (b : Bool) (hs : s.status.toNat < 32) : (s.noteOvf b).status.toNat < 32 :=
  toNat_or_lt_32 hs (by cases b <;> decide)

/-- An error of either code keeps the flags legal: it sets ERR and leaves a non-zero ERRCODE. -/
theorem State.raiseError_flagsLegal (c : ErrorCode) (hs : s.flagsLegal) : (s.raiseError c).flagsLegal := by
  obtain ⟨hstatus, hcode, herr, hview⟩ := hs
  have hc : c.code.toNat ≤ 2 ∧ c.code ≠ 0 := by cases c <;> decide
  refine ⟨toNat_or_lt_32 hstatus (by decide), ?_, ?_, by simpa using hview⟩
  · rw [State.raiseError_errcode]
    split <;> simp [hcode, hc]
  · cases he : s.err with
    | false => simpa [he] using hc.2
    | true => simpa [he] using herr.1 he

theorem exec_flagsLegal (hs : s.flagsLegal) (h : exec i s = .next t) : t.flagsLegal := by
  obtain ⟨hstatus, hcode, herr, hview⟩ := id hs
  cases exec_change h with
  | rangeError => exact State.raiseError_flagsLegal .range hs
  | held => exact hs
  | registers b => exact ⟨State.noteOvf_status_lt b hstatus, hcode, by simpa using herr, by simpa using hview⟩
  | clearAcc => exact hs
  | accumulate a b =>
    exact ⟨State.noteOvf_status_lt _ hstatus, hcode, by simpa [State.commit_eq] using herr,
      by simpa [State.commit_eq] using hview⟩
  | tables =>
    exact ⟨toNat_or_lt_32 (State.noteOvf_status_lt _ hstatus) (by decide), hcode,
      by simpa [State.commit_eq] using herr, by simpa [State.commit_eq] using hview⟩
  | view v =>
    refine ⟨toNat_or_lt_32 ?_ (by cases v <;> decide), hcode, by simpa [State.commit_eq] using herr,
      by simp [State.commit_eq]⟩
    rw [BitVec.toNat_and]
    exact Nat.and_le_left.trans_lt (State.noteOvf_status_lt _ hstatus)
  | bytes sp b ws =>
    exact ⟨by simpa using State.noteOvf_status_lt b hstatus, by simpa using hcode, by simpa using herr,
      by simpa using hview⟩

theorem exec_heldLegal (hs : s.heldLegal) (h : exec i s = .next t) : t.heldLegal := fun j hj => by
  rw [exec_cfg h]
  rcases exec_held h with hsame | ⟨hnew, hw, hr⟩
  · exact hs j (hsame ▸ hj)
  · obtain rfl : i = j := Option.some.inj (hnew ▸ hj)
    exact ⟨hw, hr⟩

/-- Every command keeps the invariant. -/
theorem exec_inv (hs : s.Inv) (h : exec i s = .next t) : t.Inv := by
  obtain ⟨hcanon, hwithin, hsized, hflags, hheld⟩ := hs
  exact ⟨exec_memoriesCanonical hcanon h, exec_memoriesWithin hwithin h, exec_tablesSized hsized h,
    exec_flagsLegal hflags h, exec_heldLegal hheld h⟩

end

/-! ## Reset and the inputs -/

/-- The host's reset answers a state with the invariant, where DISP, which it does not touch, is legal. -/
theorem State.hostReset_inv {s : State} (hwf : s.disp.wf = true) (hin : s.disp.within s.cfg .disp = true) :
    s.hostReset.Inv := by
  refine ⟨?_, ?_, ?_, ?_, ?_⟩
  · rintro (_ | (_ | _) | _)
    · rfl
    · rfl
    · rfl
    · exact hwf
  · rintro (_ | (_ | _) | _)
    · rfl
    · rfl
    · rfl
    · exact hin
  · simp [State.tablesSized, GlobalTables.reset, ViewTables.reset, sphN, shdN]
  · simp [State.flagsLegal, State.err, State.viewId]
  · simp [State.heldLegal]

/-- What the invariant says does not depend on the inputs vblank and events. -/
theorem State.Inv.of_inputs {s : State} (hs : s.Inv) (b : Bool) (bs : List Bool) (es : List HostEvent) :
    { s with vblank := b, vblankNext := bs, events := es }.Inv := hs

/-- Settles O22: a reset state is what the host's reset makes of itself, and its DISP is empty. -/
theorem resetHasTheInvariant : Obligations.ResetHasTheInvariant := fun c =>
  State.hostReset_inv (s := State.resetOf c) rfl rfl

/-- Settles O23: each part of a step keeps the invariant. -/
theorem stepKeepsTheInvariant : Obligations.StepKeepsTheInvariant := fun s t hs h => by
  refine step_keeps (P := State.Inv) (fun s hs => ?_) (fun s es hs => hs.of_inputs _ _ es) (fun s hs => ?_)
    (fun s ⟨hcanon, hwithin, _⟩ => State.hostReset_inv (hcanon .disp) (hwithin .disp)) (fun s hs => ?_)
    (fun i s t => exec_inv) hs h
  · exact s.sampleVblank_eq ▸ hs.of_inputs _ _ s.events
  · obtain ⟨hcanon, hwithin, hsized, hflags, -⟩ := hs
    exact ⟨hcanon, hwithin, hsized, hflags, nofun⟩
  · obtain ⟨hcanon, hwithin, hsized, hflags, hheld⟩ := hs
    exact ⟨hcanon, hwithin, hsized, State.raiseError_flagsLegal .illegal hflags, hheld⟩

end Sys2Proof.Machine
end

section
/-! What INIT_DONE and VIEW_VALID promise (O24): the light and the shadow centre of a view do not depend on the global
tables, and the rows SETVIEW builds are consistent whatever DY and DZ are, so the promise of VIEW_VALID is that
SETVIEW built the whole per-view state from some global tables. -/

namespace Sys2Proof.Machine

open Sys2Proof

/-- The rows SETVIEW builds are consistent (rules R133, R134). -/
theorem buildView_rowsConsistent (c : Config) (g : GlobalTables) (v : ViewId) :
    (buildView c g v).val.rowsConsistent c := fun y hy => by
  rw [buildView_ghit, buildView_gt, buildView_gz, buildView_sdz2]
  simp only [rowsOf_getD _ c g y _ hy]
  cases hhit : (groundRow c (elem16 g.dy y) g.dz).val.hit with
  | true =>
    obtain ⟨hpos, hmax⟩ := groundRow_hit hhit
    refine ⟨hpos, hmax, ?_⟩
    simp only [shadowRow, hhit, if_true, Flagged.map_val, sub16_val, sq32_toInt]
  | false => simp [groundRow_miss hhit, shadowRow]

/-- VIEW_VALID's promise, in one clause: some global tables give the whole per-view state. -/
theorem State.viewCurrent_iff (s : State) :
    s.viewCurrent ↔ (s.viewValid = true → ∃ g : GlobalTables, s.view = (buildView s.cfg g s.viewId).val) := by
  refine forall_congr' fun _ => ⟨fun ⟨_, _, _, _, hbuilt⟩ => hbuilt, fun ⟨g, hbuilt⟩ => ?_⟩
  exact ⟨by rw [hbuilt, buildView_light, buildView_light], by rw [hbuilt, buildView_sx, buildView_sx],
    by rw [hbuilt, buildView_sz, buildView_sz], hbuilt ▸ buildView_rowsConsistent s.cfg g s.viewId, g, hbuilt⟩

section
variable {i : Instr} {s t : State}

theorem exec_globalsCurrent (hs : s.globalsCurrent) (h : exec i s = .next t) : t.globalsCurrent := fun ht => by
  rw [exec_cfg h]
  rcases exec_tab h with ⟨htab, hdone⟩ | ⟨-, htab, -⟩
  · exact htab ▸ hs (hdone ▸ ht)
  · exact htab

theorem exec_viewCurrent (hs : s.viewCurrent) (h : exec i s = .next t) : t.viewCurrent := by
  rw [State.viewCurrent_iff] at hs ⊢
  intro ht
  rw [exec_cfg h]
  rcases exec_view h with ⟨hview, hid, hvalid⟩ | ⟨v, -, hview, hid, -⟩
  · rw [hview, hid]
    exact hs (hvalid ▸ ht)
  · exact ⟨s.tab, hid ▸ hview⟩

end

/-- Settles O24: only INIT and SETVIEW write what the two flags speak of, reset clears both, and what else a step
does leaves the tables, the flags and the configuration alone. -/
theorem stepKeepsTheTablesCurrent : Obligations.StepKeepsTheTablesCurrent := fun s t hglobals hview h => by
  refine step_keeps (P := fun s => s.globalsCurrent ∧ s.viewCurrent) (fun s hs => s.sampleVblank_eq ▸ hs)
    (fun _ _ hs => hs) (fun _ hs => hs) (fun s _ => ?_) (fun s hs => ?_)
    (fun i s t hs h => ⟨exec_globalsCurrent hs.1 h, exec_viewCurrent hs.2 h⟩) ⟨hglobals, hview⟩ h
  · simp [State.globalsCurrent, State.viewCurrent, State.initDone, State.viewValid]
  · simpa [State.globalsCurrent, State.viewCurrent] using hs

end Sys2Proof.Machine
end

section
/-! What a command does not write (rules R20 to R24, R30 to R38, R42), read off its change; and the reset and the read
port. -/

namespace Sys2Proof.Machine

open Sys2Proof

/-- Settles O12: no shape of change clears one of the four flags, and an error keeps the code of the first. -/
theorem stickyFlagsStaySet : Obligations.StickyFlagsStaySet := fun i s t h => by
  cases exec_change h with
  | rangeError => exact ⟨by simp, by simp, by simp, fun herr => by simp [herr]⟩
  | held | registers | clearAcc | accumulate | tables | view | bytes => simp +contextual [State.commit_eq]

/-- Settles O16: the tables and the per-view state by the lemmas about INIT and SETVIEW, the accumulator by the shape
of the change. -/
theorem tablesAndAccWrittenOnlyByTheirCommands : Obligations.TablesAndAccWrittenOnlyByTheirCommands :=
  fun i s t h => by
  refine ⟨fun hi => ?_, fun hi => ?_, ?_⟩
  · exact (exec_tab h).resolve_right fun hinit => hi hinit.1
  · exact (exec_view h).resolve_right fun ⟨v, hset, _⟩ => hi v hset
  · cases exec_change h with
    | clearAcc hi => exact ⟨fun hne => absurd hi hne, fun hne => absurd hi hne⟩
    | accumulate a b hi => exact ⟨fun _ hne => absurd hi (hne a b), fun _ => rfl⟩
    | rangeError | held | registers | tables | view | bytes => simp [State.commit_eq]

/-- Settles O18: each space is written by the commands `writtenSpace` names. -/
theorem byteMemoriesWrittenOnlyByTheirCommands : Obligations.ByteMemoriesWrittenOnlyByTheirCommands :=
  fun i s t h => by
  refine ⟨fun hrow hline => exec_byte_of_not_written h ?_, fun v hstore => exec_byte_of_not_written h ?_,
    fun hwait => exec_byte_of_not_written h ?_⟩
  · cases i <;> simp [writtenSpace] at hrow hline ⊢
  · cases i <;> simp [writtenSpace] at hstore ⊢
    exact hstore
  · cases i <;> simp [writtenSpace, waitsForVblank] at hwait ⊢

/-- Settles O19: a command's writes to DISP are inside the space of DISP, which is the owned block. -/
theorem displayWrittenOnlyInOwnedBlock : Obligations.DisplayWrittenOnlyInOwnedBlock := fun i s t a h hout => by
  obtain ⟨ws, ht, hws⟩ := exec_mem h .disp
  rw [State.byte, ht]
  refine Memory.read_writes_other fun w hw heq => ?_
  have hin := (Space.holds_iff _ _ _).1 (hws w hw).1
  simp only [Space.base, Space.size, Config.nt, Config.tw, Config.th] at hin
  omega

/-- Settles O21. -/
theorem inputsAreNeverWritten : Obligations.InputsAreNeverWritten := fun _ _ _ h => exec_inputs h

/-- A field that Error(2), the wait and a command's effect leave alone is one the command leaves alone. -/
theorem exec_keeps {α : Type} (f : State → α) {i : Instr} {s t : State} (h : exec i s = .next t)
    (herror : f (s.raiseError .range) = f s) (hhold : f (s.hold i) = f s) (heffect : f (effect i s) = f s) :
    f t = f s := by
  rcases exec_cases h with ⟨-, rfl⟩ | ⟨-, -, -, rfl⟩ | ⟨-, -, rfl⟩
  · exact herror
  · exact hhold
  · exact heffect

/-- Settles O14: the effect of a command that is not in the list delivers no flagged value. -/
theorem ovfRaisedOnlyByNarrowingCommands : Obligations.OvfRaisedOnlyByNarrowingCommands := fun i s t h hs ht => by
  have raised : ¬ (effect i s).ovf = s.ovf := fun heffect => by
    rw [exec_keeps State.ovf h (by simp) (by simp) heffect, hs] at ht
    exact absurd ht (by decide)
  cases i with
  | fxint | fxmul | mac | macrd | init | setview | isect | shade | rendrow | rendline => trivial
  | nop | fxtrunc | macclr | sphlut | shdlut | raydir | gndrow | dither | tilepack | uprow | upline | storerow
  | loadscene => exact raised (by simp [effect])

/-- Settles O17: the effect of a command writes the result registers its rule names, an error or a wait writes none.
-/
theorem resultRegistersFrame : Obligations.ResultRegistersFrame := fun i s t h => by
  have keeps : ∀ f : State → BitVec 16, f (s.raiseError .range) = f s → f (s.hold i) = f s →
      f (effect i s) = f s → f t = f s := fun f => exec_keeps f h
  cases i with
  | sphlut | raydir | gndrow | isect | shade => trivial
  | shdlut | tilepack => exact keeps State.r2 rfl rfl rfl
  | fxint | fxtrunc | fxmul | macrd | dither => exact ⟨keeps State.r1 rfl rfl rfl, keeps State.r2 rfl rfl rfl⟩
  | nop | macclr | mac | init | setview | rendrow | rendline | uprow | upline | storerow | loadscene =>
    exact ⟨keeps State.r0 rfl rfl (by simp [effect, State.commit_eq]),
      keeps State.r1 rfl rfl (by simp [effect, State.commit_eq]),
      keeps State.r2 rfl rfl (by simp [effect, State.commit_eq])⟩

/-- Settles O8: the reset event is taken before anything else, and `hostReset` clears the flags and what is held. -/
theorem resetClearsFlagsKeepsDisplay : Obligations.ResetClearsFlagsKeepsDisplay := by
  refine ⟨fun c => ⟨rfl, rfl⟩, fun s es he => ⟨{ s.sampleVblank with events := es }.hostReset, ?_, ?_⟩⟩
  · rw [step, nextAction_reset (by simpa using he)]
    rfl
  · simp

/-- Settles O15. -/
theorem readPortNumbersRegisters : Obligations.ReadPortNumbersRegisters := fun s => by
  have zeroExtend : ∀ r : BitVec 16, (r.setWidth 32).toNat = r.toNat := fun r =>
    BitVec.toNat_setWidth_of_le (by decide)
  exact ⟨zeroExtend _, zeroExtend _, zeroExtend _, zeroExtend _, zeroExtend _, rfl, rfl, rfl⟩

end Sys2Proof.Machine
end

section
/-! What a command does not read: two runs of one command from states that differ in what it does not read (O13, O20,
O55, O60). -/

namespace Sys2Proof.Machine

open Sys2Proof

/-- Two runs of a command in states with the same configuration, and the same vblank where the command waits, take the
same of the three ways: the states after them are related where each of the three relates them. -/
theorem exec_related (R : State → State → Prop) {i : Instr} {s s' t : State} (hcfg : s'.cfg = s.cfg)
    (hvblank : waitsForVblank i = true → s'.vblank = s.vblank) (herror : R (s.raiseError .range) (s'.raiseError .range))
    (hhold : waitsForVblank i = true → R (s.hold i) (s'.hold i))
    (heffect : inRange s.cfg i = true → R (effect i s) (effect i s')) (h : exec i s = .next t) :
    ∃ u, exec i s' = .next u ∧ R t u := by
  refine ⟨_, exec_eq i s', ?_⟩
  rw [hcfg]
  rcases exec_cases h with ⟨hr, rfl⟩ | ⟨hr, hw, hv, rfl⟩ | ⟨hr, hv, rfl⟩
  · rw [if_neg (by simp [hr])]
    exact herror
  · rw [if_pos hr, if_pos ⟨hw, (hvblank hw).trans hv⟩]
    exact hhold hw
  · rw [if_pos hr, if_neg fun ⟨hw, hv'⟩ => by simp [hvblank hw, hv hw] at hv']
    exact heffect hr

/-! ## STATUS, ERRCODE, DISP, vblank -/

/-- No effect depends on STATUS or ERRCODE but in STATUS and ERRCODE. INIT's tables are kept opaque: to compare STATUS
by evaluation is to build them. -/
theorem effect_of_flags (i : Instr) (s : State) (st ec : BitVec 16) :
    { effect i { s with status := st, errcode := ec } with
      status := (effect i s).status, errcode := (effect i s).errcode } = effect i s := by
  cases i with
  | init => simp only [effect]; generalize buildGlobals s.cfg = m; rfl
  | storerow v tr => cases v <;> rfl
  | _ => rfl

/-- No effect depends on DISP but in DISP. -/
theorem effect_of_disp (i : Instr) (s : State) (d : Memory) :
    { effect i { s with disp := d } with disp := (effect i s).disp } = effect i s := by
  cases i with
  | init => simp only [effect]; generalize buildGlobals s.cfg = m; rfl
  | storerow v tr => cases v <;> rfl
  | loadscene v => cases v <;> rfl
  | _ => rfl

/-- No effect depends on vblank, which it leaves as it is. -/
theorem effect_of_vblank (i : Instr) (s : State) (b : Bool) :
    effect i { s with vblank := b } = { effect i s with vblank := b } := by
  cases i with
  | init => simp only [effect]; generalize buildGlobals s.cfg = m; rfl
  | storerow v tr => cases v <;> rfl
  | loadscene v => cases v <;> rfl
  | _ => rfl

/-- Settles O13. -/
theorem noCommandReadsStatus : Obligations.NoCommandReadsStatus := fun i s _ st ec h =>
  exec_related (fun t u => { u with status := t.status, errcode := t.errcode } = t)
    (s := s) (s' := { s with status := st, errcode := ec }) rfl (fun _ => rfl) rfl (fun _ => rfl)
    (fun _ => effect_of_flags i s st ec) h

/-- Settles O20. -/
theorem displayIsNeverRead : Obligations.DisplayIsNeverRead := fun i s _ d h =>
  exec_related (fun t u => { u with disp := t.disp } = t) (s := s) (s' := { s with disp := d }) rfl (fun _ => rfl) rfl
    (fun _ => rfl) (fun _ => effect_of_disp i s d) h

/-- Settles O55: what `exec` does with a waiting command in range, and that no other command's way or effect depends
on vblank. -/
theorem onlyCopyCommandsWaitForVblank : Obligations.OnlyCopyCommandsWaitForVblank := by
  refine ⟨fun i s hw hr hv => ?_, fun i s t b hw h => ?_⟩
  · rw [exec_eq, if_pos hr, if_pos ⟨hw, hv⟩]
    rfl
  · obtain ⟨u, hu, rfl⟩ := exec_related (fun t u => u = { t with vblank := b }) (s := s)
      (s' := { s with vblank := b }) rfl (fun hwait => by simp [hw] at hwait) rfl (fun _ => rfl)
      (fun _ => effect_of_vblank i s b) h
    exact hu

/-! ## Unwritten state -/

section
variable {s s' : State}

/-! Two states that differ in unwritten state alone still do after the same update of both. -/

theorem State.sameWritten.noteOvf (h : s.sameWritten s') (b : Bool) : (s.noteOvf b).sameWritten (s'.noteOvf b) := by
  obtain ⟨heq, hacc, htab, hview⟩ := h
  rw [heq]
  exact ⟨rfl, hacc, by simpa using htab, by simpa using hview⟩

theorem State.sameWritten.raiseError (h : s.sameWritten s') (c : ErrorCode) :
    (s.raiseError c).sameWritten (s'.raiseError c) := by
  obtain ⟨heq, hacc, htab, hview⟩ := h
  rw [heq]
  exact ⟨rfl, hacc, by simpa using htab, by simpa using hview⟩

theorem State.sameWritten.hold (h : s.sameWritten s') (i : Instr) : (s.hold i).sameWritten (s'.hold i) := by
  obtain ⟨heq, hacc, htab, hview⟩ := h
  rw [heq]
  exact ⟨rfl, hacc, htab, hview⟩

theorem State.sameWritten.setR0 (h : s.sameWritten s') (u : BitVec 16) : (s.setR0 u).sameWritten (s'.setR0 u) := by
  obtain ⟨heq, hacc, htab, hview⟩ := h
  rw [heq]
  exact ⟨rfl, hacc, htab, hview⟩

theorem State.sameWritten.setR01 (h : s.sameWritten s') (u v : BitVec 16) :
    (s.setR01 u v).sameWritten (s'.setR01 u v) := by
  obtain ⟨heq, hacc, htab, hview⟩ := h
  rw [heq]
  exact ⟨rfl, hacc, htab, hview⟩

theorem State.sameWritten.setR012 (h : s.sameWritten s') (u v w : BitVec 16) :
    (s.setR012 u v w).sameWritten (s'.setR012 u v w) := by
  obtain ⟨heq, hacc, htab, hview⟩ := h
  rw [heq]
  exact ⟨rfl, hacc, htab, hview⟩

theorem State.sameWritten.setAcc (h : s.sameWritten s') (v : I32) : (s.setAcc v).sameWritten (s'.setAcc v) := by
  obtain ⟨heq, -, htab, hview⟩ := h
  rw [heq]
  exact ⟨rfl, fun _ => rfl, htab, hview⟩

theorem State.sameWritten.clearAcc (h : s.sameWritten s') : s.clearAcc.sameWritten s'.clearAcc := by
  obtain ⟨heq, -, htab, hview⟩ := h
  rw [heq]
  exact ⟨rfl, fun _ => rfl, htab, hview⟩

theorem State.sameWritten.setTab (h : s.sameWritten s') (g : GlobalTables) :
    (s.setTab g).setInitDone.sameWritten (s'.setTab g).setInitDone := by
  obtain ⟨heq, hacc, -, hview⟩ := h
  rw [heq]
  exact ⟨rfl, hacc, fun _ => rfl, by simpa using hview⟩

theorem State.sameWritten.setView (h : s.sameWritten s') (vt : ViewTables) (v : ViewId) :
    ((s.setView vt).setViewBits v).sameWritten ((s'.setView vt).setViewBits v) := by
  obtain ⟨heq, hacc, htab, -⟩ := h
  rw [heq]
  exact ⟨rfl, hacc, by simpa using htab, fun _ => rfl⟩

theorem State.sameWritten.setMem (h : s.sameWritten s') (sp : Space) (m : Memory) :
    (s.setMem sp m).sameWritten (s'.setMem sp m) := by
  obtain ⟨heq, hacc, htab, hview⟩ := h
  rw [heq]
  rcases sp with _ | (_ | _) | _ <;> exact ⟨rfl, hacc, htab, hview⟩

/-- The configuration and every byte are the same in two states that differ in unwritten state alone. -/
theorem State.sameWritten.cfg_mem (h : s.sameWritten s') : s'.cfg = s.cfg ∧ s'.mem = s.mem := by
  rw [h.1]
  exact ⟨rfl, funext fun sp => by rcases sp with _ | (_ | _) | _ <;> rfl⟩

/-- What O60 asks of the states `t` and `t'` after two runs from `s` and `s'`: they differ in unwritten state alone,
and each result register is the same in both or unchanged in both. -/
def SameOutcome (s s' t t' : State) : Prop :=
  t.sameWritten t' ∧ (t'.r0 = t.r0 ∨ t.r0 = s.r0 ∧ t'.r0 = s'.r0) ∧ (t'.r1 = t.r1 ∨ t.r1 = s.r1 ∧ t'.r1 = s'.r1) ∧
    (t'.r2 = t.r2 ∨ t.r2 = s.r2 ∧ t'.r2 = s'.r2)

/-- Two runs that write no result register. -/
theorem SameOutcome.of_kept {t t' : State} (h : t.sameWritten t') (hs : t.r0 = s.r0 ∧ t.r1 = s.r1 ∧ t.r2 = s.r2)
    (hs' : t'.r0 = s'.r0 ∧ t'.r1 = s'.r1 ∧ t'.r2 = s'.r2) : SameOutcome s s' t t' := by
  obtain ⟨h0, h1, h2⟩ := hs
  obtain ⟨h0', h1', h2'⟩ := hs'
  exact ⟨h, .inr ⟨h0, h0'⟩, .inr ⟨h1, h1'⟩, .inr ⟨h2, h2'⟩⟩

/-- A command whose premise holds has the same effect in two states that differ in unwritten state alone: what it
reads of such state is written, by its premise, and so the same in both. -/
theorem effect_sameOutcome {i : Instr} (hduty : duty s i = true) (h : s.sameWritten s') :
    SameOutcome s s' (effect i s) (effect i s') := by
  obtain ⟨hcfg, hmem⟩ := h.cfg_mem
  obtain ⟨-, hacc, htab, hview⟩ := id h
  cases i with
  | nop => exact .of_kept h ⟨rfl, rfl, rfl⟩ ⟨rfl, rfl, rfl⟩
  | fxint | fxmul => exact ⟨(h.noteOvf _).setR0 _, .inl rfl, .inr ⟨rfl, rfl⟩, .inr ⟨rfl, rfl⟩⟩
  | fxtrunc | dither => exact ⟨h.setR0 _, .inl rfl, .inr ⟨rfl, rfl⟩, .inr ⟨rfl, rfl⟩⟩
  | tilepack => exact ⟨h.setR01 _ _, .inl rfl, .inl rfl, .inr ⟨rfl, rfl⟩⟩
  | macclr => exact .of_kept h.clearAcc ⟨rfl, rfl, rfl⟩ ⟨rfl, rfl, rfl⟩
  | mac =>
    simp only [effect, hacc hduty]
    exact .of_kept ((h.noteOvf _).setAcc _) ⟨rfl, rfl, rfl⟩ ⟨rfl, rfl, rfl⟩
  | macrd =>
    simp only [effect, hacc hduty]
    exact ⟨(h.noteOvf _).setR0 _, .inl rfl, .inr ⟨rfl, rfl⟩, .inr ⟨rfl, rfl⟩⟩
  | init =>
    simp only [effect, hcfg]
    exact .of_kept ((h.noteOvf _).setTab _) ⟨rfl, rfl, rfl⟩ ⟨rfl, rfl, rfl⟩
  | setview =>
    simp only [effect, hcfg, htab hduty]
    exact .of_kept ((h.noteOvf _).setView _ _) ⟨rfl, rfl, rfl⟩ ⟨rfl, rfl, rfl⟩
  | sphlut | raydir =>
    simp only [effect, hcfg, htab hduty]
    exact ⟨h.setR012 _ _ _, .inl rfl, .inl rfl, .inl rfl⟩
  | shdlut =>
    simp only [effect, hcfg, htab hduty]
    exact ⟨h.setR01 _ _, .inl rfl, .inl rfl, .inr ⟨rfl, rfl⟩⟩
  | gndrow =>
    simp only [duty, Bool.and_eq_true] at hduty
    simp only [effect, hview hduty.2]
    exact ⟨h.setR012 _ _ _, .inl rfl, .inl rfl, .inl rfl⟩
  | isect | shade =>
    simp only [duty, Bool.and_eq_true] at hduty
    simp only [effect, hcfg, htab hduty.1, hview hduty.2]
    exact ⟨(h.noteOvf _).setR012 _ _ _, .inl rfl, .inl rfl, .inl rfl⟩
  | rendrow | rendline =>
    simp only [duty, Bool.and_eq_true] at hduty
    have hrow : s'.rowbuf = s.rowbuf := congrFun hmem .rowbuf
    simp only [effect, hcfg, hrow, htab hduty.1, hview hduty.2]
    exact .of_kept ((h.noteOvf _).setMem _ _) ⟨rfl, rfl, rfl⟩ ⟨rfl, rfl, rfl⟩
  | uprow | upline | storerow | loadscene =>
    have hdisp : s'.disp = s.disp := congrFun hmem .disp
    simp only [effect, State.byte, hcfg, hdisp, hmem]
    exact .of_kept (h.setMem _ _) (by simp) (by simp)

end

/-- Settles O60. -/
theorem premisedCommandsReadNoUnwrittenState : Obligations.PremisedCommandsReadNoUnwrittenState :=
  fun i s s' t hduty h hexec => by
  obtain ⟨hcfg, -⟩ := h.cfg_mem
  have hvblank : s'.vblank = s.vblank := by rw [h.1]
  exact exec_related (SameOutcome s s') hcfg (fun _ => hvblank)
    (.of_kept (h.raiseError .range) ⟨rfl, rfl, rfl⟩ ⟨rfl, rfl, rfl⟩)
    (fun _ => .of_kept (h.hold i) ⟨rfl, rfl, rfl⟩ ⟨rfl, rfl, rfl⟩) (fun _ => effect_sameOutcome hduty h) hexec

end Sys2Proof.Machine
end

section
/-! INIT and SETVIEW as they are used below: they always complete, and replace the tables by the ones they build. -/

namespace Sys2Proof.Machine

open Sys2Proof

/-- What INIT leaves in the fields that later commands read. -/
theorem exec_init_next {s t : State} (h : exec .init s = .next t) :
    t.cfg = s.cfg ∧ t.tab = (buildGlobals s.cfg).val ∧ t.ovf = (s.ovf || (buildGlobals s.cfg).ovf) := by
  cases h
  simp [State.commit_eq]

/-- What SETVIEW leaves in the fields that later commands read. -/
theorem exec_setview_next {v : ViewId} {s t : State} (h : exec (.setview v) s = .next t) :
    t.cfg = s.cfg ∧ t.tab = s.tab ∧ t.view = (buildView s.cfg s.tab v).val ∧
      t.ovf = (s.ovf || (buildView s.cfg s.tab v).ovf) := by
  cases h
  simp [State.commit_eq]

/-- A command in range that never waits has its effect. -/
theorem exec_eq_effect {i : Instr} {s : State} (hr : inRange s.cfg i = true) (hw : waitsForVblank i = false) :
    exec i s = .next (effect i s) := by
  rw [exec_eq, if_pos hr, if_neg (by simp [hw])]

end Sys2Proof.Machine
end

section
/-! The shadow table of rule R124: along the buckets it climbs from 0 to 255, and SHDLUT's clamped index (rule R142)
climbs with the distance (O38). -/

namespace Sys2Proof.Machine

open Sys2Proof

/-- Entry `i` of the shadow table in integer arithmetic (rule R124). -/
theorem shdEntry_toNat (c : Config) (i : Nat) :
    (shdEntry c i).toNat =
      if i * 2 ^ c.shdShift ≤ c.umbR2 then 0
      else if c.shdR2 ≤ i * 2 ^ c.shdShift then 255
      else (i * 2 ^ c.shdShift - c.umbR2) * 255 / (c.shdR2 - c.umbR2) := by
  simp only [shdEntry]
  split_ifs with hdark hlit
  · rfl
  · rfl
  · have hramp : (i * 2 ^ c.shdShift - c.umbR2) * 255 / (c.shdR2 - c.umbR2) ≤ 255 :=
      Nat.div_le_of_le_mul (Nat.mul_le_mul_right 255 (by omega))
    rw [BitVec.toNat_ofNat, Nat.mod_eq_of_lt (by omega)]

/-- The shadow table never falls from a bucket to a later one. -/
theorem shdEntry_mono (c : Config) {i j : Nat} (h : i ≤ j) : (shdEntry c i).toNat ≤ (shdEntry c j).toNat := by
  have hd : i * 2 ^ c.shdShift ≤ j * 2 ^ c.shdShift := Nat.mul_le_mul_right _ h
  rcases Nat.lt_or_ge c.umbR2 (i * 2 ^ c.shdShift) with hout | humbra
  · rcases Nat.lt_or_ge (j * 2 ^ c.shdShift) c.shdR2 with hramp | hlit
    · rw [shdEntry_toNat, shdEntry_toNat, if_neg (by omega), if_neg (by omega), if_neg (by omega), if_neg (by omega)]
      exact Nat.div_le_div_right (Nat.mul_le_mul_right 255 (by omega))
    · rw [shdEntry_toNat c j, if_neg (by omega), if_pos hlit]
      exact Nat.le_of_lt_succ (shdEntry c i).isLt
  · rw [shdEntry_toNat c i, if_pos humbra]
    exact Nat.zero_le _

/-- SHDLUT's index never falls as the squared distance grows. -/
theorem shdIndex_mono (c : Config) {d d' : Int} (h : d ≤ d') : shdIndex c d ≤ shdIndex c d' := by
  have hasr : asr d c.shdShift ≤ asr d' c.shdShift := Int.ediv_le_ediv (by positivity) h
  unfold shdIndex clamp
  split_ifs <;> omega

/-- At no distance the index is 0. -/
theorem shdIndex_of_nonpos (c : Config) {d : Int} (h : d ≤ 0) : shdIndex c d = 0 := by
  have hasr : asr d c.shdShift ≤ 0 := Int.ediv_le_of_le_mul (by positivity) (by simpa using h)
  unfold shdIndex clamp
  split_ifs <;> omega

/-- From SHD_R2 on, where it is the low edge of a bucket, the index is that bucket's or a later one's. -/
theorem shdR2_le_shdIndex (c : Config) {d : Int} (hedge : c.shdR2 % 2 ^ c.shdShift = 0) (h : (c.shdR2 : Int) ≤ d) :
    c.shdR2 ≤ shdIndex c d * 2 ^ c.shdShift := by
  obtain ⟨k, hk⟩ := Nat.dvd_of_mod_eq_zero hedge
  have hlast : k < shdN := by
    obtain ⟨-, -, -, hmax⟩ := c.lut
    rw [hk, Nat.mul_comm] at hmax
    exact Nat.lt_of_mul_lt_mul_right hmax
  have hindex : (k : Int) ≤ asr d c.shdShift :=
    (Int.le_ediv_iff_mul_le (by positivity)).2 (by rw [hk, Nat.mul_comm] at h; exact_mod_cast h)
  rw [hk, Nat.mul_comm]
  refine Nat.mul_le_mul_right _ ?_
  unfold shdIndex clamp
  split_ifs <;> omega

/-- What SHDLUT reads after INIT. -/
theorem exec_shdlut_r0 {t u : State} {d : I32} (htab : t.tab = (buildGlobals t.cfg).val)
    (hu : exec (.shdlut d) t = .next u) : u.r0 = (shdEntry t.cfg (shdIndex t.cfg d.toInt)).setWidth 16 := by
  cases hu
  simp only [State.setR01_r0, shdElem, htab, buildGlobals_shd]
  rw [getD_range _ _ _ _ (shdIndex_lt _ _)]

/-- Settles O38. -/
theorem shadowBrightnessIsMonotone : Obligations.ShadowBrightnessIsMonotone := fun s t d d' hinit hd => by
  obtain ⟨hcfg, htab, -⟩ := exec_init_next hinit
  rw [← hcfg] at htab ⊢
  refine ⟨_, _, rfl, rfl, ?_, fun hzero => ?_, fun hpos hedge hfar => ?_⟩ <;> rw [exec_shdlut_r0 htab rfl]
  · rw [exec_shdlut_r0 htab rfl, BitVec.toNat_setWidth_of_le (by decide), BitVec.toNat_setWidth_of_le (by decide)]
    exact shdEntry_mono _ (shdIndex_mono _ hd)
  · rw [shdIndex_of_nonpos _ hzero, show shdEntry t.cfg 0 = 0 from BitVec.eq_of_toNat_eq (by simp [shdEntry_toNat])]
    rfl
  · have hlit := shdR2_le_shdIndex t.cfg hedge hfar
    have humbra : t.cfg.umbR2 < t.cfg.shdR2 := Nat.div_lt_self hpos (by decide)
    rw [show shdEntry t.cfg (shdIndex t.cfg d.toInt) = 255 from
      BitVec.eq_of_toNat_eq (by rw [shdEntry_toNat, if_neg (by omega), if_pos hlit]; rfl)]
    rfl

end Sys2Proof.Machine
end

section
/-! When a pixel cannot overflow (rule R28): bounds on what the pixel pipeline reads from the tables keep every
narrowing of the intersector and the shader inside 16 bits. The bounds are those of the default configuration's
tables. -/

namespace Sys2Proof.Machine

open Sys2Proof

/-! ## Narrowings that fit -/

/-- The value lies between -b and b. -/
abbrev within (b v : Int) : Prop := -b ≤ v ∧ v ≤ b

/-- A 16-bit value that overflow has not touched: the flag is clear and the value is the integer. -/
def Flagged.Is16 (m : Flagged I16) (v : Int) : Prop := m.ovf = false ∧ m.val.toInt = v

theorem narrow16_is {v : Int} (h : fits16 v) : (narrow16 v).Is16 v :=
  ⟨by simp only [narrow16_ovf, decide_eq_false_iff_not]; omega, toInt_ofInt16 h.1 h.2⟩

theorem fxMul_is {a b : I16} (h : fits16 (a.toInt * b.toInt / 256)) : (fxMul a b).Is16 (a.toInt * b.toInt / 256) :=
  narrow16_is h

theorem add16_is {a b : I16} {u v : Int} (ha : a.toInt = u) (hb : b.toInt = v) (h : fits16 (u + v)) :
    (add16 a b).Is16 (u + v) := by
  subst ha hb
  exact narrow16_is h

theorem sub16_is {a b : I16} {u v : Int} (ha : a.toInt = u) (hb : b.toInt = v) (h : fits16 (u - v)) :
    (sub16 a b).Is16 (u - v) := by
  subst ha hb
  exact narrow16_is h

/-- A multiply-accumulate whose sum fits 32 bits. -/
theorem macStep_fits {acc : I32} {a b : I16} {u : Int} (hacc : acc.toInt = u) (h : fits32 (u + a.toInt * b.toInt)) :
    (macStep acc a b).ovf = false ∧ (macStep acc a b).val.toInt = u + a.toInt * b.toInt := by
  subst hacc
  exact ⟨by simp only [macStep, wrap32_ovf, decide_eq_false_iff_not]; omega, toInt_ofInt32 h.1 h.2⟩

/-- The product of a hit parameter and a bounded factor, as `fx_mul` floors it. -/
theorem mul_div_within {t d b : Int} (ht : 0 ≤ t) (ht' : t ≤ 32767) (hd : within b d) :
    within (128 * b) (t * d / 256) := by
  obtain ⟨hlow, hhigh⟩ := hd
  have h1 : t * d ≤ 32767 * b := by nlinarith
  have h2 : -(32767 * b) ≤ t * d := by nlinarith
  constructor <;> omega

/-- A product of bounded factors is bounded. -/
theorem mul_within {a b u v : Int} (hu : within a u) (hv : within b v) : within (a * b) (u * v) :=
  abs_le.1 (by rw [abs_mul]; exact mul_le_mul (abs_le.2 hu) (abs_le.2 hv) (abs_nonneg v) (by omega))

/-- A normal component whose three narrowings fit: half of hit minus centre (rule R170). -/
theorem normalCoord_is (c : Config) {t cam d centre : I16} {m u v : Int} (hprod : t.toInt * d.toInt / 256 = m)
    (hcam : cam.toInt = u) (hcentre : centre.toInt = v) (hm : fits16 m) (hp : fits16 (u + m))
    (hq : fits16 (u + m - v)) :
    (normalCoord c t cam d centre).Is16 ((u + m - v) / 2) := by
  subst hprod
  obtain ⟨-, -, hshift, -⟩ := c.shading
  obtain ⟨hm1, hm2⟩ := fxMul_is hm
  obtain ⟨hp1, hp2⟩ := add16_is hcam hm2 hp
  obtain ⟨hq1, hq2⟩ := sub16_is hp2 hcentre hq
  refine ⟨by simp only [normalCoord, Flagged.bind_ovf, Flagged.map_ovf, hm1, hp1, hq1, Bool.or_false], ?_⟩
  simp only [normalCoord, Flagged.bind_val, Flagged.map_val, hq2, hshift, asr, pow_one]
  exact toInt_ofInt16 (by omega) (by omega)

/-- A dot product whose products are small together does not overflow (rule R97). -/
theorem dot3_ovf_of_small {u v : Vec3} {p q r : Int} (hx : within p (u.x.toInt * v.x.toInt))
    (hy : within q (u.y.toInt * v.y.toInt)) (hz : within r (u.z.toInt * v.z.toInt)) (hsum : p + q + r ≤ 8388352) :
    (dot3 u v).ovf = false := by
  obtain ⟨hx1, hx2⟩ := macStep_fits (acc := 0) (a := u.x) (b := v.x) (u := 0) rfl (by omega)
  obtain ⟨hy1, hy2⟩ := macStep_fits (a := u.y) (b := v.y) hx2 (by omega)
  obtain ⟨hz1, hz2⟩ := macStep_fits (a := u.z) (b := v.z) hy2 (by omega)
  simp only [dot3, Flagged.bind_ovf, hx1, hy1, hz1, Bool.false_or, macNarrow, hz2, asr]
  exact (narrow16_is (by omega)).1

/-! ## Tables within bounds -/

/-- What a pixel reads from the tables is small enough for 16-bit arithmetic. -/
structure PixelBounds (g : GlobalTables) (v : ViewTables) (x y : Nat) : Prop where
  dx : within 128 (elem16 g.dx x).toInt
  dy : within 128 (elem16 g.dy y).toInt
  dz : g.dz = 256
  sphT : ∀ i, i < 64 → 0 ≤ (elem16 g.sphT i).toInt
  dist : ∀ i, i < 64 → (sub16 g.oc2 (elem16 g.sphP2 i)).ovf = false
  gt : 0 ≤ (elem16 v.gt y).toInt
  lightX : within 128 v.light.x.toInt
  lightY : within 179 v.light.y.toInt
  lightZ : within 128 v.light.z.toInt
  sx : within 366 v.sx.toInt

section
variable {g : GlobalTables} {v : ViewTables} {x y : Nat}

/-- Where the sphere wins, the parameter is the sphere's. -/
theorem selectHit_sphere {sph gnd : Bool} {ts tg : I16} (h : (selectHit sph ts gnd tg).1 = .sphere) :
    (selectHit sph ts gnd tg).2 = ts := by
  unfold selectHit at h ⊢
  split_ifs at h ⊢
  rfl

/-- The sphere wins a pixel with a hit parameter of the sphere table. -/
theorem intersect_sphere_t {c : Config} (h : (intersect c g v x y).val.kind = .sphere) :
    (intersect c g v x y).val.t = elem16 g.sphT (sphIndex c (pixelDD g x y)) :=
  selectHit_sphere h

theorem PixelBounds.hit_ovf (h : PixelBounds g v x y) (c : Config) : (intersect c g v x y).ovf = false := by
  simpa [intersect, sphereTest] using h.dist _ (sphIndex_lt c _)

/-- The components of the normal stay below 8192, 8192 and 15616, so its product with the light is small (rules R170,
R171). -/
theorem PixelBounds.sphere_ovf (h : PixelBounds g v x y) {t : I16} (ht : 0 ≤ t.toInt) :
    (sphereBrightness Config.default g v x y t).ovf = false := by
  have ht' := (toInt16_bounds t).2
  have hmx := mul_div_within ht ht' h.dx
  have hmy := mul_div_within ht ht' h.dy
  have hmz : t.toInt * g.dz.toInt / 256 = t.toInt := by
    rw [h.dz, show (256 : I16).toInt = 256 from rfl, Int.mul_ediv_cancel _ (by decide)]
  obtain ⟨hx1, hx2⟩ := normalCoord_is Config.default (t := t) (d := elem16 g.dx x) (cam := Config.default.cam.x)
    (centre := sphC.x) (u := 0) (v := 0) rfl rfl rfl (by omega) (by omega) (by omega)
  obtain ⟨hy1, hy2⟩ := normalCoord_is Config.default (t := t) (d := elem16 g.dy y) (cam := Config.default.cam.y)
    (centre := sphC.y) (u := 512) (v := 512) rfl rfl rfl (by omega) (by omega) (by omega)
  obtain ⟨hz1, hz2⟩ := normalCoord_is Config.default (cam := Config.default.cam.z) (centre := sphC.z) (u := 0)
    (v := 1536) hmz rfl rfl (by omega) (by omega) (by omega)
  rw [sphereBrightness_ovf, Bool.or_eq_false_iff]
  refine ⟨by simp only [sphereNormal, Flagged.bind_ovf, Flagged.map_ovf, hx1, hy1, hz1, Bool.or_false], ?_⟩
  refine dot3_ovf_of_small (mul_within (a := 8192) ?_ h.lightX) (mul_within (a := 8192) ?_ h.lightY)
    (mul_within (a := 15616) ?_ h.lightZ) (by norm_num)
  · simp only [sphereNormal, Flagged.bind_val, Flagged.map_val, hx2]
    omega
  · simp only [sphereNormal, Flagged.bind_val, Flagged.map_val, hy2]
    omega
  · simp only [sphereNormal, Flagged.bind_val, Flagged.map_val, hz2]
    omega

theorem PixelBounds.ground_ovf (h : PixelBounds g v x y) :
    (groundBrightness Config.default g v x y).ovf = false := by
  have hm := mul_div_within h.gt (toInt16_bounds _).2 h.dx
  have hsx := h.sx
  obtain ⟨hm1, hm2⟩ := fxMul_is (a := elem16 v.gt y) (b := elem16 g.dx x) (by omega)
  obtain ⟨hp1, hp2⟩ := add16_is (a := Config.default.cam.x) (u := 0) rfl hm2 (by omega)
  obtain ⟨hq1, -⟩ := sub16_is (b := v.sx) hp2 rfl (by omega)
  simp only [groundBrightness, Flagged.bind_ovf, Flagged.map_ovf, hm1, hp1, hq1, Bool.or_false]

/-- No narrowing of a bounded pixel overflows, whatever surface it shows. -/
theorem PixelBounds.pixel_ovf (h : PixelBounds g v x y) : (shadePixel Config.default g v x y).ovf = false := by
  have hi := h.hit_ovf Config.default
  cases hk : (intersect Config.default g v x y).val.kind with
  | sky => rw [shadePixel_sky hk, hi]
  | sphere =>
    rw [shadePixel_sphere hk, hi, Bool.false_or, intersect_sphere_t hk]
    exact h.sphere_ovf (h.sphT _ (sphIndex_lt _ _))
  | ground =>
    rw [shadePixel_ground hk, hi, Bool.false_or]
    exact h.ground_ovf

end

end Sys2Proof.Machine
end

section
/-! The default configuration (rule R28): its tables are within the bounds of a pixel, so neither its tables nor its
pixels overflow (O58, O59). -/

namespace Sys2Proof.Machine

open Sys2Proof

/-! ## The default tables -/

theorem default_globals_ovf : (buildGlobals Config.default).ovf = false := by decide +kernel

theorem default_view_ovf (v : ViewId) : (buildView Config.default (buildGlobals Config.default).val v).ovf = false := by
  cases v <;> decide +kernel

/-- The 64 buckets of the default sphere tables: no near root is behind the camera, and OC2 − SPH_P2 fits. -/
theorem default_buckets : ∀ i, i < 64 → 0 ≤ (elem16 (buildGlobals Config.default).val.sphT i).toInt ∧
    (sub16 (buildGlobals Config.default).val.oc2 (elem16 (buildGlobals Config.default).val.sphP2 i)).ovf = false := by
  decide +kernel

theorem default_dx {x : Nat} (hx : x < 64) : within 128 (elem16 (buildGlobals Config.default).val.dx x).toInt := by
  have hval : (rayX Config.default x).Is16 (((x : Int) - 32) * 4) := narrow16_is (v := ((x : Int) - 32) * 4) (by omega)
  rw [elem16, buildGlobals_dx, getD_range _ Config.default.w _ _ hx, hval.2]
  omega

theorem default_dy {y : Nat} (hy : y < 64) : within 128 (elem16 (buildGlobals Config.default).val.dy y).toInt := by
  have hval : (rayY Config.default y).Is16 ((32 - (y : Int)) * 4) := narrow16_is (v := (32 - (y : Int)) * 4) (by omega)
  rw [elem16, buildGlobals_dy, getD_range _ Config.default.h _ _ hy, hval.2]
  omega

/-- A row's ground parameter is positive with a ground hit and 0 without (rule R133). -/
theorem buildView_gt_nonneg (c : Config) (g : GlobalTables) (v : ViewId) {y : Nat} (hy : y < c.h) :
    0 ≤ (elem16 (buildView c g v).val.gt y).toInt := by
  rw [elem16, buildView_gt, rowsOf_getD _ _ _ _ _ hy]
  cases hhit : (groundRow c (elem16 g.dy y) g.dz).val.hit with
  | true => exact (groundRow_hit hhit).1.le
  | false => simp [groundRow_miss hhit]

/-- What INIT and SETVIEW build under the default configuration is within the bounds of every pixel. -/
theorem default_pixelBounds {g : GlobalTables} {w : ViewTables} {v : ViewId}
    (hg : g = (buildGlobals Config.default).val) (hw : w = (buildView Config.default g v).val) {x y : Nat} (hx : x < 64)
    (hy : y < 64) : PixelBounds g w x y where
  dx := hg ▸ default_dx hx
  dy := hg ▸ default_dy hy
  dz := by rw [hg, buildGlobals_dz]; rfl
  sphT i hi := by rw [hg]; exact (default_buckets i hi).1
  dist i hi := by rw [hg]; exact (default_buckets i hi).2
  gt := hw ▸ buildView_gt_nonneg _ g v hy
  lightX := by rw [hw, buildView_light]; cases v <;> decide
  lightY := by rw [hw, buildView_light]; cases v <;> decide
  lightZ := by rw [hw, buildView_light]; cases v <;> decide
  sx := by rw [hw, buildView_sx]; cases v <;> decide

/-! ## Scanlines and tile rows of bounded pixels -/

section
variable {g : GlobalTables} {w : ViewTables}

theorem renderLineWrites_ovf_of_bounds {y : Nat} (h : ∀ x, x < 64 → PixelBounds g w x y) :
    (renderLineWrites Config.default g w y).ovf = false := by
  simp only [renderLineWrites_ovf, List.any_eq_false, List.mem_range, Bool.not_eq_true]
  intro tc htc k hk
  replace htc : tc < 8 := htc
  exact (h _ (by omega)).pixel_ovf

theorem tileRow_ovf_of_bounds {tr : Nat} (htr : tr < 8) (h : ∀ x y, x < 64 → y < 64 → PixelBounds g w x y) :
    ((linesOfRow tr).any fun y => (renderLineWrites Config.default g w y).ovf) = false := by
  simp only [linesOfRow, List.any_map, List.any_eq_false, List.mem_range, Bool.not_eq_true]
  intro r hr
  exact renderLineWrites_ovf_of_bounds fun x hx => h x (tr * 8 + r) hx (by omega)

end

/-! ## OVF after a command in range: what it was, or the overflow of the command's own value -/

section
variable {s : State}

theorem exec_shade_ovf {x y : Nat} (hr : inRange s.cfg (.shade x y) = true) :
    ∃ t, exec (.shade x y) s = .next t ∧ t.ovf = (s.ovf || (shadePixel s.cfg s.tab s.view x y).ovf) :=
  ⟨_, exec_eq_effect hr rfl, by simp [effect, State.commit_eq]⟩

theorem exec_isect_ovf {x y : Nat} (hr : inRange s.cfg (.isect x y) = true) :
    ∃ t, exec (.isect x y) s = .next t ∧ t.ovf = (s.ovf || (intersect s.cfg s.tab s.view x y).ovf) :=
  ⟨_, exec_eq_effect hr rfl, by simp [effect, State.commit_eq]⟩

theorem exec_rendline_ovf {y : Nat} (hr : inRange s.cfg (.rendline y) = true) :
    ∃ t, exec (.rendline y) s = .next t ∧ t.ovf = (s.ovf || (renderLineWrites s.cfg s.tab s.view y).ovf) :=
  ⟨_, exec_eq_effect hr rfl, by simp [effect]⟩

theorem exec_rendrow_ovf {tr : Nat} (hr : inRange s.cfg (.rendrow tr) = true) :
    ∃ t, exec (.rendrow tr) s = .next t ∧
      t.ovf = (s.ovf || (linesOfRow tr).any fun y => (renderLineWrites s.cfg s.tab s.view y).ovf) :=
  ⟨_, exec_eq_effect hr rfl, by simp [effect]⟩

end

/-! ## The statements -/

/-- Settles O58. -/
theorem defaultTablesNeverOverflow : Obligations.DefaultTablesNeverOverflow := fun s t hcfg h => by
  obtain ⟨hcfg', htab, hovf⟩ := exec_init_next h
  rw [hcfg] at hcfg' htab hovf
  rw [default_globals_ovf, Bool.or_false] at hovf
  refine ⟨hovf, fun v => ⟨_, rfl, ?_⟩⟩
  obtain ⟨-, -, -, hviewOvf⟩ := exec_setview_next (v := v) (s := t) rfl
  rw [hviewOvf, hcfg', htab, default_view_ovf, hovf, Bool.or_false]

/-- The state INIT and SETVIEW leave under the default configuration, in what a pixel reads. -/
theorem default_state {s t u : State} {v : ViewId} (hs : s.cfg = Config.default) (hinit : exec .init s = .next t)
    (hview : exec (.setview v) t = .next u) :
    u.cfg = Config.default ∧ u.tab = (buildGlobals Config.default).val ∧
      u.view = (buildView Config.default u.tab v).val := by
  obtain ⟨hcfgt, htabt, -⟩ := exec_init_next hinit
  obtain ⟨hcfg, htab, hvt, -⟩ := exec_setview_next hview
  rw [hcfgt, hs] at hcfg hvt
  rw [hs, ← htab] at htabt
  exact ⟨hcfg, htabt, htab ▸ hvt⟩

/-- Settles O59: after INIT and SETVIEW the tables are within the bounds of every pixel. -/
theorem defaultPixelsNeverOverflow : Obligations.DefaultPixelsNeverOverflow :=
  fun s t u v x y hs hinit hview hx hy => by
  obtain ⟨hcfg, htab, hvt⟩ := default_state hs hinit hview
  have hbounds : ∀ x y, x < 64 → y < 64 → PixelBounds u.tab u.view x y :=
    fun _ _ => default_pixelBounds htab hvt
  have htr : y / 8 < 8 := by omega
  have hshade := exec_shade_ovf (s := u) (x := x) (y := y) (hcfg ▸ decide_eq_true ⟨hx, hy⟩)
  have hisect := exec_isect_ovf (s := u) (x := x) (y := y) (hcfg ▸ decide_eq_true ⟨hx, hy⟩)
  have hrendline := exec_rendline_ovf (s := u) (y := y) (hcfg ▸ decide_eq_true hy)
  have hrendrow := exec_rendrow_ovf (s := u) (tr := y / 8) (hcfg ▸ decide_eq_true htr)
  rw [hcfg] at hshade hisect hrendline hrendrow
  rw [(hbounds x y hx hy).pixel_ovf, Bool.or_false] at hshade
  rw [(hbounds x y hx hy).hit_ovf, Bool.or_false] at hisect
  rw [renderLineWrites_ovf_of_bounds fun x hx => hbounds x y hx hy, Bool.or_false] at hrendline
  rw [tileRow_ovf_of_bounds htr hbounds, Bool.or_false] at hrendrow
  exact ⟨hshade, hisect, hrendline, hrendrow⟩

end Sys2Proof.Machine
end

section
/-! A step always answers a next state (O9), and a held copy command is what a step goes on with (O7). -/

namespace Sys2Proof.Machine

open Sys2Proof

/-- Whatever a step has to do, it answers a next state: `exec` never stops, and an illegal word is Error(1). -/
theorem act_next (a : Action) (s : State) : ∃ t, act a s = .next t := by
  cases a with
  | reset => exact ⟨s.hostReset, rfl⟩
  | resume i => exact ⟨_, exec_eq i s⟩
  | command cw =>
    simp only [act, runWord]
    split
    · exact ⟨_, exec_eq _ s⟩
    · exact ⟨s.raiseError .illegal, rfl⟩
  | idle => exact ⟨s, rfl⟩

/-- Settles O9. -/
theorem everyStepAnswersANextState : Obligations.EveryStepAnswersANextState := fun _ => act_next _ _

/-- With a command held and no reset next, a step samples vblank and executes the held command, released (rule R59). -/
theorem step_of_held {s : State} {i : Instr} (hheld : s.held = some i) (hevents : s.events.head? ≠ some .reset) :
    step s = exec i { s with
      vblank := s.vblankNext.headD s.vblank, vblankNext := s.vblankNext.tail, held := none } := by
  rw [step, nextAction_resume (by simpa using hheld) (by simpa using hevents), State.sampleVblank_eq]
  rfl

/-- Settles O7: the step executes the held command, which is held again where the sample is 0. -/
theorem heldCommandWaitsThenRuns : Obligations.HeldCommandWaitsThenRuns :=
  fun s i hheld hwaits hrange hevents => by
  rw [step_of_held hheld hevents]
  refine ⟨fun hlow => ?_, fun hhigh => by rw [hhigh]⟩
  rw [hlow, hheld]
  exact onlyCopyCommandsWaitForVblank.1 i _ hwaits hrange rfl

end Sys2Proof.Machine
end

section
/-! The copy commands (43_raster_cache.md rules R205 to R208). Each moves the bytes of its list by one distance, which
the command and the configuration fix, so no two of its copies meet at a destination with different sources; what is
read after them follows for all four at once (O51 to O54). -/

namespace Sys2Proof.Machine

open Sys2Proof

/-! ## A run of copies -/

/-- The state after byte copies `(destination, source)` from one space to another. -/
def State.copied (dst src : Space) (ms : List (Nat × Nat)) (s : State) : State :=
  s.setMem dst ((s.mem dst).writes (ms.map fun p => (p.1, s.byte src p.2)))

section
variable {dst src : Space} {ms : List (Nat × Nat)} {s : State}

/-- Where every copy is over the same distance, each destination reads as its source did, an unwritten byte too. -/
theorem State.copied_byte_of_mem {off : Nat} {p : Nat × Nat} (hwf : (s.mem dst).wf = true)
    (hoff : ∀ q ∈ ms, q.1 = off + q.2) (hp : p ∈ ms) : (s.copied dst src ms).byte dst p.1 = s.byte src p.2 := by
  rw [State.copied, State.setMem_byte_same]
  refine Memory.read_writes_mem hwf (List.mem_map_of_mem hp) fun w hw hdest => ?_
  obtain ⟨q, hq, rfl⟩ := List.mem_map.1 hw
  have hsource : q.2 = p.2 := by
    have := hoff p hp
    have := hoff q hq
    simp only at hdest
    omega
  simp only [hsource]

/-- An address that is no destination reads as before. -/
theorem State.copied_byte_other {a : Nat} (h : ∀ p ∈ ms, a ≠ p.1) :
    (s.copied dst src ms).byte dst a = s.byte dst a := by
  rw [State.copied, State.setMem_byte_same]
  refine Memory.read_writes_other fun w hw => ?_
  obtain ⟨p, hp, rfl⟩ := List.mem_map.1 hw
  exact h p hp

end

/-! ## The copies of each command -/

/-- UPROW copies byte `k` of every tile column `tc` to tile `tr * TW + tc` of the owned block. -/
theorem mem_uprowMoves {c : Config} {tr : Nat} {p : Nat × Nat} :
    p ∈ uprowMoves c tr ↔ ∃ tc k, tc < c.w / 8 ∧ k < 16 ∧
      p = ((c.tileBase + (tr * (c.w / 8) + tc)) * 16 + k, tc * 16 + k) := by
  simp only [uprowMoves, Config.tw, dispAddr, rowbufAddr, List.mem_flatMap, List.mem_map, List.mem_range]
  constructor
  · rintro ⟨tc, htc, k, hk, rfl⟩
    exact ⟨tc, k, htc, hk, rfl⟩
  · rintro ⟨tc, k, htc, hk, rfl⟩
    exact ⟨tc, htc, k, hk, rfl⟩

/-- UPLINE copies the two bytes of its pixel row of every tile column. -/
theorem mem_uplineMoves {c : Config} {y : Nat} {p : Nat × Nat} :
    p ∈ uplineMoves c y ↔ ∃ tc b, tc < c.w / 8 ∧ b < 2 ∧
      p = ((c.tileBase + (y / 8 * (c.w / 8) + tc)) * 16 + (2 * (y % 8) + b), tc * 16 + (2 * (y % 8) + b)) := by
  simp only [uplineMoves, Config.tw, dispAddr, rowbufAddr, List.mem_flatMap, List.mem_map, List.mem_range,
    List.mem_cons, List.not_mem_nil, or_false]
  constructor
  · rintro ⟨tc, htc, k, rfl | rfl, rfl⟩
    · exact ⟨tc, 0, htc, by decide, rfl⟩
    · exact ⟨tc, 1, htc, by decide, rfl⟩
  · rintro ⟨tc, b, htc, hb, rfl⟩
    exact ⟨tc, htc, _, by omega, rfl⟩

/-- STOREROW copies every byte of ROWBUF to tile row `tr` of the cache. -/
theorem mem_storerowMoves {c : Config} {tr : Nat} {p : Nat × Nat} :
    p ∈ storerowMoves c tr ↔ ∃ j, j < c.w / 8 * 16 ∧ p = (tr * (c.w / 8) * 16 + j, j) := by
  simp only [storerowMoves, Config.tw, List.mem_map, List.mem_range, eq_comm]

/-- LOADSCENE copies byte `k` of every tile `n` of the cache to tile `n` of the owned block. -/
theorem mem_loadsceneMoves {c : Config} {p : Nat × Nat} :
    p ∈ loadsceneMoves c ↔ ∃ n k, n < c.w / 8 * (c.h / 8) ∧ k < 16 ∧
      p = ((c.tileBase + n) * 16 + k, n * 16 + k) := by
  simp only [loadsceneMoves, Config.nt, Config.tw, Config.th, dispAddr, cacheAddr, List.mem_flatMap, List.mem_map,
    List.mem_range]
  constructor
  · rintro ⟨n, hn, k, hk, rfl⟩
    exact ⟨n, k, hn, hk, rfl⟩
  · rintro ⟨n, k, hn, hk, rfl⟩
    exact ⟨n, hn, k, hk, rfl⟩

/-- UPROW moves by the distance from ROWBUF to its tile row of the owned block. -/
theorem uprowMoves_offset (c : Config) (tr : Nat) :
    ∀ p ∈ uprowMoves c tr, p.1 = (c.tileBase + tr * (c.w / 8)) * 16 + p.2 := by
  intro p hp
  obtain ⟨tc, k, -, -, rfl⟩ := mem_uprowMoves.1 hp
  simp only
  omega

/-- UPLINE moves by the distance UPROW does for the same tile row. -/
theorem uplineMoves_offset (c : Config) (y : Nat) :
    ∀ p ∈ uplineMoves c y, p.1 = (c.tileBase + y / 8 * (c.w / 8)) * 16 + p.2 := by
  intro p hp
  obtain ⟨tc, b, -, -, rfl⟩ := mem_uplineMoves.1 hp
  simp only
  omega

/-- STOREROW moves by the address of its tile row in the cache. -/
theorem storerowMoves_offset (c : Config) (tr : Nat) :
    ∀ p ∈ storerowMoves c tr, p.1 = tr * (c.w / 8) * 16 + p.2 := by
  intro p hp
  obtain ⟨j, -, rfl⟩ := mem_storerowMoves.1 hp
  rfl

/-- LOADSCENE moves by the base of the owned block. -/
theorem loadsceneMoves_offset (c : Config) : ∀ p ∈ loadsceneMoves c, p.1 = c.tileBase * 16 + p.2 := by
  intro p hp
  obtain ⟨n, k, -, -, rfl⟩ := mem_loadsceneMoves.1 hp
  simp only
  omega

/-! ## The statements -/

/-- Settles O51: in range and with vblank 1, UPROW is the run of copies of its list. -/
theorem uprowResult : Obligations.UprowResult := fun tr s htr hv hwf => by
  refine ⟨s.copied .disp .rowbuf (uprowMoves s.cfg tr), execUprow_ok htr hv, rfl, fun tc k htc hk => ?_,
    fun a ha => State.copied_byte_other fun p hp => ?_⟩
  · exact State.copied_byte_of_mem (dst := .disp) hwf (uprowMoves_offset s.cfg tr)
      (mem_uprowMoves.2 ⟨tc, k, htc, hk, rfl⟩)
  · obtain ⟨tc, k, htc, hk, rfl⟩ := mem_uprowMoves.1 hp
    exact ha tc k htc hk

/-- Settles O52: in range and with vblank 1, UPLINE is the run of copies of its list. -/
theorem uplineResult : Obligations.UplineResult := fun y s hy hv hwf => by
  refine ⟨s.copied .disp .rowbuf (uplineMoves s.cfg y), execUpline_ok hy hv, rfl, fun tc b htc hb => ?_,
    fun a ha => State.copied_byte_other fun p hp => ?_⟩
  · exact State.copied_byte_of_mem (dst := .disp) hwf (uplineMoves_offset s.cfg y)
      (mem_uplineMoves.2 ⟨tc, b, htc, hb, rfl⟩)
  · obtain ⟨tc, b, htc, hb, rfl⟩ := mem_uplineMoves.1 hp
    exact ha tc b htc hb

/-- Settles O53: in range STOREROW is the run of copies of its list; it has no wait, so vblank plays no part. -/
theorem storerowResult : Obligations.StorerowResult := fun v tr s htr hwf => by
  refine ⟨s.copied (.cache v) .rowbuf (storerowMoves s.cfg tr), execStorerow_ok htr, by cases v <;> rfl,
    fun j hj => ?_, fun a ha => State.copied_byte_other fun p hp => ?_⟩
  · exact State.copied_byte_of_mem hwf (storerowMoves_offset s.cfg tr) (mem_storerowMoves.2 ⟨j, hj, rfl⟩)
  · obtain ⟨j, hj, rfl⟩ := mem_storerowMoves.1 hp
    exact ha j hj

/-- Settles O54: with vblank 1, LOADSCENE is the run of copies of its list. -/
theorem loadsceneResult : Obligations.LoadsceneResult := fun v s hv hwf => by
  refine ⟨s.copied .disp (.cache v) (loadsceneMoves s.cfg), execLoadscene_ok hv, rfl, fun n k hn hk => ?_,
    fun a ha => State.copied_byte_other fun p hp => ?_⟩
  · exact State.copied_byte_of_mem (dst := .disp) hwf (loadsceneMoves_offset s.cfg)
      (mem_loadsceneMoves.2 ⟨n, k, hn, hk, rfl⟩)
  · obtain ⟨n, k, hn, hk, rfl⟩ := mem_loadsceneMoves.1 hp
    exact ha n k hn hk

end Sys2Proof.Machine
end

section
/-! The round trip of commands and words (30_encoding.md rules R70 to R78): each operand form survives its field and,
where the reserved bits are 0, each field survives its operand form (O1, O2, O3). -/

namespace Sys2Proof

/-! ## From an operand to its field and back -/

theorem indexOf_ofNat {n : Nat} (h : fitsIndexField n = true) : indexOf (BitVec.ofNat 16 n) = n := by
  have hn : n < 256 := of_decide_eq_true h
  simp only [indexOf, BitVec.extractLsb'_toNat, BitVec.toNat_ofNat]
  omega

@[simp] theorem viewOf_field (v : ViewId) : viewOf v.field = v := by cases v <;> rfl

/-- The fields of a 32-bit operand, put together again. -/
theorem fields_append (ab : I32) : ab.extractLsb' 16 16 ++ ab.extractLsb' 0 16 = ab := by
  ext k hk
  simp only [BitVec.getElem_append, BitVec.getElem_extractLsb']
  split
  · simp [BitVec.getLsbD_eq_getElem, hk]
  · simp [BitVec.getLsbD_eq_getElem, hk, show 16 + (k - 16) = k by omega]

theorem build_dither (bright : Byte) (xp yp : Bool) (surf : Surface) :
    Op.dither.build (bright.setWidth 16) (ditherField xp yp surf) = .dither bright xp yp surf := by
  have hbright : (bright.setWidth 16).extractLsb' 0 8 = bright := by
    ext k hk
    simp [BitVec.getLsbD_eq_getElem, hk, show k < 16 by omega]
  rw [Op.build, hbright]
  cases xp <;> cases yp <;> cases surf <;> rfl

/-- The operands cut from the fields of a well-formed command are the command's (rules R72, R78). -/
theorem build_fields {i : Instr} (h : i.wellFormed = true) : i.op.build i.fieldA i.fieldB = i := by
  cases i with
  | nop | fxint | fxtrunc | fxmul | macclr | mac | macrd | init | tilepack => rfl
  | setview v | loadscene v => simp [Instr.op, Instr.fieldB, Op.build]
  | sphlut ab | shdlut ab => simp only [Instr.op, Instr.fieldA, Instr.fieldB, Op.build, fields_append]
  | raydir x y | isect x y | shade x y =>
    obtain ⟨hx, hy⟩ := Bool.and_eq_true_iff.1 h
    simp only [Instr.op, Instr.fieldA, Instr.fieldB, Op.build, indexOf_ofNat hx, indexOf_ofNat hy]
  | gndrow n | rendrow n | rendline n | uprow n | upline n =>
    simp only [Instr.op, Instr.fieldB, Op.build, indexOf_ofNat h]
  | dither bright xp yp surf => exact build_dither bright xp yp surf
  | storerow v tr => simp only [Instr.op, Instr.fieldA, Instr.fieldB, Op.build, viewOf_field, indexOf_ofNat h]

/-- The encoder sets no reserved bit of any command (rules R71, R78). -/
theorem reservedBitsZero : (i : Instr) → Laws.ReservedBitsZero.Statement i
  | .nop => Laws.ReservedBitsZero.nop
  | .fxint sa => Laws.ReservedBitsZero.fxint sa
  | .fxtrunc sa => Laws.ReservedBitsZero.fxtrunc sa
  | .fxmul sa sb => Laws.ReservedBitsZero.fxmul sa sb
  | .macclr => Laws.ReservedBitsZero.macclr
  | .mac sa sb => Laws.ReservedBitsZero.mac sa sb
  | .macrd => Laws.ReservedBitsZero.macrd
  | .init => Laws.ReservedBitsZero.init
  | .setview v => Laws.ReservedBitsZero.setview v
  | .sphlut ab => Laws.ReservedBitsZero.sphlut ab
  | .shdlut ab => Laws.ReservedBitsZero.shdlut ab
  | .raydir x y => Laws.ReservedBitsZero.raydir x y
  | .gndrow y => Laws.ReservedBitsZero.gndrow y
  | .isect x y => Laws.ReservedBitsZero.isect x y
  | .shade x y => Laws.ReservedBitsZero.shade x y
  | .dither bright xp yp surf => Laws.ReservedBitsZero.dither bright xp yp surf
  | .tilepack px => Laws.ReservedBitsZero.tilepack px
  | .rendrow tr => Laws.ReservedBitsZero.rendrow tr
  | .rendline y => Laws.ReservedBitsZero.rendline y
  | .uprow tr => Laws.ReservedBitsZero.uprow tr
  | .upline y => Laws.ReservedBitsZero.upline y
  | .storerow v tr => Laws.ReservedBitsZero.storerow v tr
  | .loadscene v => Laws.ReservedBitsZero.loadscene v

/-- Settles O1: the encoder's word passes the mask test, and its fields give back the operands. -/
theorem decodeOfEncodeIsIdentity : Obligations.DecodeOfEncodeIsIdentity := fun i h => by
  rw [encode, decode_word, if_pos (reservedBitsZero i h), build_fields h]

/-- A word that a well-formed command encodes to decodes to the command. -/
theorem decode_of_encode {i : Instr} {cw : CmdWord} (h : i.wellFormed = true) (hcw : encode i = cw) :
    decode cw = .ok i := hcw ▸ decodeOfEncodeIsIdentity i h

/-- Settles O3: each example word is the encoding of the well-formed command printed beside it. -/
theorem exampleWordsDecode : Obligations.ExampleWordsDecode := by
  refine ⟨?_, ?_, ?_, ?_, ?_, ?_, ?_, ?_, ?_, ?_, ?_⟩ <;> exact decode_of_encode rfl (by decide)

/-! ## From a field to its operand and back -/

/-- A field whose bits from `k` on are 0 holds a number below 2^k. -/
theorem toNat_lt_of_high_zero {f : BitVec 16} {k : Nat} (h : f &&& (BitVec.allOnes 16 <<< k) = 0) :
    f.toNat < 2 ^ k := by
  refine Nat.lt_pow_two_of_testBit _ fun j hj => ?_
  rw [BitVec.testBit_toNat]
  by_cases hlow : j < 16
  · have hbit := congrArg (fun g => g.getLsbD j) h
    simpa only [BitVec.ofNat_eq_ofNat, BitVec.getLsbD_and, BitVec.getLsbD_shiftLeft, BitVec.getLsbD_allOnes,
      BitVec.getLsbD_zero, hlow, Nat.not_lt.2 hj, show j - k < 16 by omega, decide_true, decide_false, Bool.not_false,
      Bool.and_true] using hbit
  · exact BitVec.getLsbD_of_ge f j (by omega)

/-- A field with format I's reserved bits 0 is its index. -/
theorem ofNat_indexOf {f : BitVec 16} (h : f &&& 0xFF00 = 0) : BitVec.ofNat 16 (indexOf f) = f := by
  have hlt : f.toNat < 2 ^ 8 := toNat_lt_of_high_zero h
  refine BitVec.eq_of_toNat_eq ?_
  simp only [indexOf, BitVec.toNat_ofNat, BitVec.extractLsb'_toNat]
  omega

/-- A field with format V's reserved bits 0 is its view. -/
theorem field_viewOf {f : BitVec 16} (h : f &&& 0xFFFE = 0) : (viewOf f).field = f := by
  have hlt : f.toNat < 2 ^ 1 := toNat_lt_of_high_zero h
  have key : ∀ n : Fin 2, (viewOf (BitVec.ofNat 16 n)).field = BitVec.ofNat 16 n := by decide
  simpa using key ⟨f.toNat, hlt⟩

/-- A field b with format D's reserved bits 0 is the parities and the surface of its DITHER. -/
theorem ditherField_of_field {f : BitVec 16} (h : f &&& 0xFFF8 = 0) :
    ditherField (f.getLsbD 0) (f.getLsbD 1) (surfaceOf f) = f := by
  have hlt : f.toNat < 2 ^ 3 := toNat_lt_of_high_zero h
  have key : ∀ n : Fin 8, ditherField ((BitVec.ofNat 16 n).getLsbD 0) ((BitVec.ofNat 16 n).getLsbD 1)
      (surfaceOf (BitVec.ofNat 16 n)) = BitVec.ofNat 16 n := by decide
  simpa using key ⟨f.toNat, hlt⟩

/-- A field a with format D's reserved bits 0 is the brightness of its DITHER. -/
theorem setWidth_brightness {f : BitVec 16} (h : f &&& 0xFF00 = 0) : (f.extractLsb' 0 8).setWidth 16 = f := by
  have hlt : f.toNat < 2 ^ 8 := toNat_lt_of_high_zero h
  refine BitVec.eq_of_toNat_eq ?_
  simp only [BitVec.toNat_setWidth, BitVec.extractLsb'_toNat]
  omega

theorem indexOf_fits (f : BitVec 16) : fitsIndexField (indexOf f) = true :=
  decide_eq_true (f.extractLsb' 0 8).isLt

/-- What is cut from two fields is a well-formed command of the opcode (rule R72). -/
theorem build_wellFormed (o : Op) (a b : BitVec 16) : (o.build a b).wellFormed = true ∧ (o.build a b).op = o := by
  cases o <;> simp [Op.build, Instr.wellFormed, Instr.op, indexOf_fits]

/-- Where no reserved bit is 1, the fields of the command cut from two fields are those fields. -/
theorem fields_build (o : Op) {a b : BitVec 16} (ha : a &&& o.format.maskA = 0) (hb : b &&& o.format.maskB = 0) :
    (o.build a b).fieldA = a ∧ (o.build a b).fieldB = b := by
  have zero_of_and : ∀ {f : BitVec 16}, f &&& 0xFFFF = 0 → 0 = f := fun h => (BitVec.and_allOnes.symm.trans h).symm
  cases o with
  | nop | macclr | macrd | init => exact ⟨zero_of_and ha, zero_of_and hb⟩
  | fxint | fxtrunc | tilepack => exact ⟨rfl, zero_of_and hb⟩
  | fxmul | mac => exact ⟨rfl, rfl⟩
  | sphlut | shdlut => exact ⟨BitVec.extractLsb'_append_eq_left, BitVec.extractLsb'_append_eq_right⟩
  | setview | loadscene => exact ⟨zero_of_and ha, field_viewOf hb⟩
  | gndrow | rendrow | rendline | uprow | upline => exact ⟨zero_of_and ha, ofNat_indexOf hb⟩
  | storerow => exact ⟨field_viewOf ha, ofNat_indexOf hb⟩
  | raydir | isect | shade => exact ⟨ofNat_indexOf ha, ofNat_indexOf hb⟩
  | dither => exact ⟨setWidth_brightness ha, ditherField_of_field hb⟩

/-! ## The words that decode -/

theorem opOfCode_eq_some {b : BitVec 8} {o : Op} : opOfCode b = some o ↔ b = o.code :=
  ⟨code_of_opOfCode, fun h => h ▸ opOfCode_code o⟩

/-- Decoding a word whose opcode field is a command's is the mask test (rule R74). -/
theorem decode_of_opField {cw : CmdWord} {o : Op} (h : opField cw = o.code) :
    decode cw = if cw &&& o.format.mask = o.matchWord then .ok (o.build (aField cw) (bField cw))
      else .error .reservedBit := by
  rw [decode, opOfCode_eq_some.2 h]

/-- A word's opcode is reserved (rule R76), which is why it is rejected, or it is some command's. -/
theorem decode_cases (cw : CmdWord) :
    ((∀ o : Op, opField cw ≠ o.code) ∧ decode cw = .error .reservedOpcode) ∨ ∃ o : Op, opField cw = o.code := by
  cases h : opOfCode (opField cw) with
  | none => exact .inl ⟨fun o ho => by simp [ho] at h, by rw [decode, h]⟩
  | some o => exact .inr ⟨o, opOfCode_eq_some.1 h⟩

/-- A word that passes a command's mask test has the command's opcode and no reserved bit set. -/
theorem mask_test_fields {cw : CmdWord} {o : Op} :
    cw &&& o.format.mask = o.matchWord ↔
      opField cw = o.code ∧ aField cw &&& o.format.maskA = 0 ∧ bField cw &&& o.format.maskB = 0 := by
  have hop : opField cw &&& 0xFF = opField cw := BitVec.and_allOnes
  rw [← word_of_fields cw, Format.mask_eq, and_word, Op.matchWord, word_inj, word_of_fields, hop]

/-- A word decodes to a command exactly where it passes the mask test of the command's opcode. -/
theorem decode_eq_ok {cw : CmdWord} {i : Instr} :
    decode cw = .ok i ↔
      ∃ o : Op, cw &&& o.format.mask = o.matchWord ∧ i = o.build (aField cw) (bField cw) := by
  constructor
  · intro h
    obtain ⟨-, hreserved⟩ | ⟨o, ho⟩ := decode_cases cw
    · rw [hreserved] at h
      cases h
    · rw [decode_of_opField ho] at h
      split at h
      case isTrue hmask => cases h; exact ⟨o, hmask, rfl⟩
      case isFalse => cases h
  · rintro ⟨o, hmask, rfl⟩
    rw [decode_of_opField (mask_test_fields.1 hmask).1, if_pos hmask]

/-- Settles O2: the mask test says that the word's fields hold nothing but the opcode and the operands. -/
theorem encodeOfDecodeIsIdentity : Obligations.EncodeOfDecodeIsIdentity := fun cw i h => by
  obtain ⟨o, hmask, rfl⟩ := decode_eq_ok.1 h
  obtain ⟨hop, ha, hb⟩ := mask_test_fields.1 hmask
  obtain ⟨hwf, hbuild⟩ := build_wellFormed o (aField cw) (bField cw)
  obtain ⟨hfieldA, hfieldB⟩ := fields_build o ha hb
  refine ⟨hwf, ?_⟩
  rw [encode, hbuild, hfieldA, hfieldB, ← hop, word_of_fields]

/-! ## The words that do not -/

/-- The opcodes in the order of rule R73. -/
def Op.all : List Op :=
  [.nop, .fxint, .fxtrunc, .fxmul, .macclr, .mac, .macrd, .init, .setview, .sphlut, .shdlut, .raydir, .gndrow,
    .isect, .shade, .dither, .tilepack, .rendrow, .rendline, .uprow, .upline, .storerow, .loadscene]

theorem Op.mem_all (o : Op) : o ∈ Op.all := by cases o <;> decide

/-- The rows that O4 writes out are the opcodes with their formats' masks (rules R71, R73). -/
theorem opcodeRows_eq : opcodeRows = Op.all.map fun o => (o.code, o.format.mask) := rfl

theorem exists_opcodeRow {P : BitVec 8 × CmdWord → Prop} :
    (∃ r ∈ opcodeRows, P r) ↔ ∃ o : Op, P (o.code, o.format.mask) := by
  simp [opcodeRows_eq, Op.mem_all]

theorem forall_opcodeRow {P : BitVec 8 × CmdWord → Prop} :
    (∀ r ∈ opcodeRows, P r) ↔ ∀ o : Op, P (o.code, o.format.mask) := by
  simp [opcodeRows_eq, Op.mem_all]

/-- The word a row's mask test compares with is the opcode's match word. -/
theorem code_shift (o : Op) : o.code.setWidth 40 <<< 32 = o.matchWord := by cases o <;> rfl

theorem code_injective {o o' : Op} (h : o.code = o'.code) : o = o' := by
  simpa using congrArg opOfCode h

/-- A word is rejected for its opcode exactly where no command has it (rules R74, R76). -/
theorem decode_eq_reservedOpcode {cw : CmdWord} :
    decode cw = .error .reservedOpcode ↔ ∀ o : Op, opField cw ≠ o.code := by
  obtain ⟨hnone, hd⟩ | ⟨o, ho⟩ := decode_cases cw
  · exact iff_of_true hd hnone
  · refine iff_of_false ?_ fun hnone => hnone o ho
    rw [decode_of_opField ho]
    split <;> simp

/-- A word is rejected for a reserved bit exactly where its command's mask test fails (rule R74). -/
theorem decode_eq_reservedBit {cw : CmdWord} :
    decode cw = .error .reservedBit ↔ ∃ o : Op, opField cw = o.code ∧ cw &&& o.format.mask ≠ o.matchWord := by
  obtain ⟨hnone, hd⟩ | ⟨o, ho⟩ := decode_cases cw
  · exact iff_of_false (by simp [hd]) fun ⟨o, ho, _⟩ => hnone o ho
  · have honly : ∀ o' : Op, opField cw = o'.code ↔ o = o' := fun o' =>
      ⟨fun ho' => code_injective (ho.symm.trans ho'), fun h => h ▸ ho⟩
    simp only [decode_of_opField ho, honly, exists_eq_left']
    split <;> simp_all

/-- Settles O4: the rows are the opcodes, and each outcome of decoding is characterised over the opcodes. -/
theorem decodeRejectsExactlyIllegalWords : Obligations.DecodeRejectsExactlyIllegalWords := fun cw => by
  simp only [exists_opcodeRow, forall_opcodeRow, code_shift]
  refine ⟨decode_eq_reservedOpcode, decode_eq_reservedBit, ?_⟩
  simp only [decode_eq_ok]
  exact ⟨fun ⟨_, o, hmask, _⟩ => ⟨o, hmask⟩, fun ⟨o, hmask⟩ => ⟨_, o, hmask, rfl⟩⟩

end Sys2Proof
end

section
/-! What the decoder and the range check reject has no effect but its error (rules R74, R75, R231, R232; O6, O11). -/

namespace Sys2Proof.Machine

open Sys2Proof

/-- With no command held and a word presented, a step samples vblank, takes the word and runs it (rule R260). -/
theorem step_of_command {s : State} {cw : CmdWord} {es : List HostEvent} (hheld : s.held = none)
    (hevents : s.events = .command cw :: es) :
    step s = runWord cw { s with
      vblank := s.vblankNext.headD s.vblank, vblankNext := s.vblankNext.tail, events := es } := by
  rw [step, nextAction_command (by simpa using hheld) (by simpa using hevents), State.sampleVblank_eq]
  rfl

/-- A word that does not decode is Error(1) (rule R74). -/
theorem runWord_of_error {cw : CmdWord} {e : DecodeError} (h : decode cw = .error e) (s : State) :
    runWord cw s = .next (s.raiseError .illegal) := by
  rw [runWord, h]

/-- Settles O6. -/
theorem illegalWordHasOnlyErrorOne : Obligations.IllegalWordHasOnlyErrorOne :=
  fun s cw es e hheld hevents hdecode => by
  rw [step_of_command hheld hevents, runWord_of_error hdecode]
  rfl

/-- A command that fails its range check is Error(2), whatever vblank is (rules R75, R233). -/
theorem exec_of_not_inRange {i : Instr} {s : State} (h : inRange s.cfg i = false) :
    exec i s = .next (s.raiseError .range) := by
  rw [exec_eq, if_neg (by simp [h])]

/-- Settles O11. -/
theorem rangeErrorHasNoOtherEffect : Obligations.RangeErrorHasNoOtherEffect := fun _ _ h => exec_of_not_inRange h

end Sys2Proof.Machine
end

section
/-! The tile format of 43_raster_cache.md rule R200: which pixel bit each bit of a plane byte is (O47). -/

namespace Sys2Proof.Machine

open Sys2Proof

/-- A bit of a running OR is set where it was at the start or one of the terms sets it. -/
theorem getLsbD_foldl_or {α : Type} {w : Nat} (f : α → BitVec w) (l : List α) (x : BitVec w) (k : Nat) :
    (l.foldl (fun acc c => acc ||| f c) x).getLsbD k = (x.getLsbD k || l.any fun c => (f c).getLsbD k) := by
  induction l generalizing x with
  | nil => simp
  | cons c l ih => simp [ih, Bool.or_assoc]

/-- Pixel `d` contributes to bit 7 - c of a plane byte exactly where it is pixel `c` and its plane bit is 1. -/
theorem getLsbD_plane_term (b : Bool) {c d : Nat} (hc : c < 8) (hd : d < 8) :
    (if b then (1 : Byte) <<< (7 - d) else 0).getLsbD (7 - c) = (b && decide (d = c)) := by
  cases b with
  | false => simp
  | true =>
    have key : ∀ c d : Fin 8, ((1 : Byte) <<< (7 - d.val)).getLsbD (7 - c.val) = decide (d.val = c.val) := by decide
    exact key ⟨c, hc⟩ ⟨d, hd⟩

/-- Bit 7 - c of plane `n` is bit `n` of pixel `c` (rule R200). -/
theorem packPlane_getLsbD (n : Nat) (px : List Colour) {c : Nat} (hc : c < 8) :
    (packPlane n px).getLsbD (7 - c) = (px.getD c 0).getLsbD n := by
  have hstart : (0 : Byte).getLsbD (7 - c) = false := BitVec.getLsbD_zero
  rw [packPlane, getLsbD_foldl_or, hstart, Bool.false_or, Bool.eq_iff_iff]
  simp only [List.any_eq_true, List.mem_range]
  constructor
  · rintro ⟨d, hd, hbit⟩
    rw [getLsbD_plane_term _ hc hd, Bool.and_eq_true, decide_eq_true_iff] at hbit
    obtain ⟨hpixel, rfl⟩ := hbit
    exact hpixel
  · exact fun hpixel => ⟨c, hc, by rw [getLsbD_plane_term _ hc hc, hpixel]; simp⟩

/-- Bit `n` of pixel `c` of a TILEPACK operand (rule R72). -/
theorem pixelsOf_getLsbD (px : I16) {c n : Nat} (hc : c < 8) (hn : n < 2) :
    ((pixelsOf px).getD c 0).getLsbD n = px.getLsbD (14 - 2 * c + n) := by
  rw [pixelsOf, getD_range _ _ _ _ hc, pixelOf, BitVec.getLsbD_extractLsb']
  simp [hn]

/-- A plane byte as a register: below 256, with the byte's bits (rule R201). -/
theorem plane_register (b : Byte) : (b.setWidth 16).toNat < 256 ∧
    ∀ k, k < 8 → (b.setWidth 16).getLsbD k = b.getLsbD k := by
  refine ⟨?_, fun k hk => ?_⟩
  · rw [BitVec.toNat_setWidth_of_le (by decide)]
    exact b.isLt
  · simp [show k < 16 by omega]

/-- Settles O47. -/
theorem tilepackResult : Obligations.TilepackResult := fun px s => by
  obtain ⟨hlo, hloBits⟩ := plane_register (packLo (pixelsOf px))
  obtain ⟨hhi, hhiBits⟩ := plane_register (packHi (pixelsOf px))
  refine ⟨_, _, rfl, hlo, hhi, fun c hc => ⟨?_, ?_⟩⟩
  · rw [hloBits _ (by omega), packLo, packPlane_getLsbD 0 _ hc, pixelsOf_getLsbD px hc (by decide)]
    rfl
  · rw [hhiBits _ (by omega), packHi, packPlane_getLsbD 1 _ hc, pixelsOf_getLsbD px hc (by decide)]
    congr 1
    omega

end Sys2Proof.Machine
end

section
/-! The bytes that rendering leaves in ROWBUF (rules R202, R203): of tile row `tr`, the byte at address `j` is one plane
of pixel row `j % 16 / 2` of tile column `j / 16`, whichever command renders it. -/

namespace Sys2Proof.Machine

open Sys2Proof

/-- Byte `j` of a rendered tile row (rules R55, R202). -/
def rowByte (c : Config) (g : GlobalTables) (v : ViewTables) (tr j : Nat) : Byte :=
  packPlane (j % 2) (tileLine c g v (tr * 8 + j % 16 / 2) (j / 16)).val

/-- The stores of scanline `y` are the bytes of its pixel row of tile row `y / 8`. -/
theorem mem_renderLineWrites {c : Config} {g : GlobalTables} {v : ViewTables} {y : Nat} {w : Nat × Byte} :
    w ∈ (renderLineWrites c g v y).val ↔
      w.1 < c.w / 8 * 16 ∧ w.1 % 16 / 2 = y % 8 ∧ w.2 = rowByte c g v (y / 8) w.1 := by
  obtain ⟨j, b⟩ := w
  simp only [renderLineWrites_val, List.mem_flatMap, List.mem_range, tileLineBytes, List.mem_cons, List.not_mem_nil,
    or_false, rowbufAddr, Config.tw, Prod.mk.injEq]
  have hbyte : ∀ {tc p : Nat}, p < 2 → j = tc * 16 + (2 * (y % 8) + p) →
      rowByte c g v (y / 8) j = packPlane p (tileLine c g v y tc).val := fun {tc p} hp hj => by
    rw [rowByte, show j % 2 = p by omega, show y / 8 * 8 + j % 16 / 2 = y by omega, show j / 16 = tc by omega]
  constructor
  · rintro ⟨tc, htc, ⟨hj, rfl⟩ | ⟨hj, rfl⟩⟩
    · exact ⟨by omega, by omega, (hbyte (p := 0) (by decide) hj).symm⟩
    · exact ⟨by omega, by omega, (hbyte (p := 1) (by decide) hj).symm⟩
  · rintro ⟨hj, hline, rfl⟩
    refine ⟨j / 16, by omega, ?_⟩
    rcases Nat.mod_two_eq_zero_or_one j with hp | hp
    · have hat : j = j / 16 * 16 + 2 * (y % 8) := by omega
      exact .inl ⟨hat, hbyte (p := 0) (by decide) hat⟩
    · have hat : j = j / 16 * 16 + (2 * (y % 8) + 1) := by omega
      exact .inr ⟨hat, hbyte (p := 1) (by decide) hat⟩

/-- A run of stores whose bytes a function of the address gives: each address stored to reads as the function says,
every other as before. -/
theorem Memory.read_writes_of_fun {m : Memory} {ws : List (Nat × Option Byte)} {f : Nat → Byte}
    (h : ∀ w ∈ ws, w.2 = some (f w.1)) (a : Nat) :
    (m.writes ws).read a = if a ∈ ws.map Prod.fst then some (f a) else m.read a := by
  split
  case isTrue hmem =>
    obtain ⟨w, hw, rfl⟩ := List.mem_map.1 hmem
    exact Memory.read_writes_some (h w hw ▸ hw) fun x hx hxa => hxa ▸ h x hx
  case isFalse hmem =>
    exact Memory.read_writes_other fun w hw haw => hmem (List.mem_map.2 ⟨w, hw, haw.symm⟩)

section
variable (s : State)

/-- RENDLINE replaces the bytes of its pixel row in ROWBUF. -/
theorem effect_rendline_byte (y j : Nat) :
    (effect (.rendline y) s).byte .rowbuf j =
      if j < s.cfg.w / 8 * 16 ∧ j % 16 / 2 = y % 8 then some (rowByte s.cfg s.tab s.view (y / 8) j)
      else s.byte .rowbuf j := by
  rw [effect, State.setMem_byte_same, Memory.read_writes_of_fun (f := rowByte s.cfg s.tab s.view (y / 8))]
  · refine if_congr ?_ rfl rfl
    simp only [List.mem_map, exists_exists_and_eq_and, mem_renderLineWrites]
    exact ⟨fun ⟨w, ⟨hw, hline, _⟩, hj⟩ => hj ▸ ⟨hw, hline⟩, fun ⟨hj, hline⟩ =>
      ⟨(j, rowByte s.cfg s.tab s.view (y / 8) j), ⟨hj, hline, rfl⟩, rfl⟩⟩
  · simp only [List.mem_map]
    rintro _ ⟨w, hw, rfl⟩
    exact congrArg some (mem_renderLineWrites.1 hw).2.2

/-- RENDROW replaces every byte of ROWBUF. -/
theorem effect_rendrow_byte {tr j : Nat} (hj : j < s.cfg.w / 8 * 16) :
    (effect (.rendrow tr) s).byte .rowbuf j = some (rowByte s.cfg s.tab s.view tr j) := by
  rw [effect, State.setMem_byte_same, Memory.read_writes_of_fun (f := rowByte s.cfg s.tab s.view tr), if_pos]
  · simp only [List.mem_map, List.mem_flatMap, linesOfRow, List.mem_range, mem_renderLineWrites]
    exact ⟨_, ⟨tr * 8 + j % 16 / 2, ⟨j % 16 / 2, by omega, rfl⟩, (j, rowByte s.cfg s.tab s.view _ j),
      ⟨hj, by simp only; omega, rfl⟩, rfl⟩, rfl⟩
  · simp only [List.mem_map, List.mem_flatMap, linesOfRow, List.mem_range]
    rintro _ ⟨_, ⟨r, hr, rfl⟩, w, hw, rfl⟩
    have hbyte := (mem_renderLineWrites.1 hw).2.2
    rw [show (tr * 8 + r) / 8 = tr by omega] at hbyte
    exact congrArg some hbyte

end

end Sys2Proof.Machine
end

section
/-! Sequences of commands (rule R58): what runs one after another, and what a block repeated for every index keeps. -/

namespace Sys2Proof.Machine

open Sys2Proof

theorem execAll_cons {i : Instr} {s t : State} (h : exec i s = .next t) (is : List Instr) :
    execAll (i :: is) s = execAll is t := by
  rw [execAll, h]

theorem execAll_append {is : List Instr} {s t : State} (h : execAll is s = .next t) (js : List Instr) :
    execAll (is ++ js) s = execAll js t := by
  induction is generalizing s with
  | nil => cases h; rfl
  | cons i is ih =>
    rw [execAll, exec_eq] at h
    rw [List.cons_append, execAll_cons (exec_eq i s)]
    exact ih h

/-- Blocks of commands, one for each index below `n`: where block `k` leads from `P k` to `P (k + 1)`, all of them lead
from `P 0` to `P n`. -/
theorem execAll_blocks {P : Nat → State → Prop} {block : Nat → List Instr} {n : Nat} {s : State}
    (hblock : ∀ k, k < n → ∀ s, P k s → ∃ t, execAll (block k) s = .next t ∧ P (k + 1) t) (hs : P 0 s) :
    ∃ t, execAll ((List.range n).flatMap block) s = .next t ∧ P n t := by
  induction n with
  | zero => exact ⟨s, rfl, hs⟩
  | succ n ih =>
    obtain ⟨u, hu, hPu⟩ := ih fun k hk => hblock k (by omega)
    obtain ⟨t, ht, hPt⟩ := hblock n (by omega) u hPu
    refine ⟨t, ?_, hPt⟩
    rw [List.range_succ, List.flatMap_append, execAll_append hu, List.flatMap_singleton, ht]

end Sys2Proof.Machine
end

section
/-! The two prerender paths of rule R209 (b). Each works through the tile rows in order and leaves, after each row, the
same bytes in its tile row of DISP and of CACHE[v]; so each ends with one and the same scene (O57). -/

namespace Sys2Proof.Machine

open Sys2Proof

/-! ## What a copy leaves, address by address -/

/-- After copies over one distance, a destination reads as its source did and every other address as before. -/
theorem State.copied_byte {dst src : Space} {ms : List (Nat × Nat)} {s : State} {off : Nat}
    (hwf : (s.mem dst).wf = true) (hoff : ∀ p ∈ ms, p.1 = off + p.2) (a : Nat) :
    (s.copied dst src ms).byte dst a =
      if off ≤ a ∧ a - off ∈ ms.map Prod.snd then s.byte src (a - off) else s.byte dst a := by
  split
  case isTrue h =>
    obtain ⟨hle, hmem⟩ := h
    obtain ⟨p, hp, hsrc⟩ := List.mem_map.1 hmem
    have ha : a = p.1 := by
      have := hoff p hp
      omega
    rw [← hsrc, ha]
    exact State.copied_byte_of_mem hwf hoff hp
  case isFalse h =>
    refine State.copied_byte_other fun p hp ha => h ?_
    have hp1 := hoff p hp
    exact ⟨by omega, List.mem_map.2 ⟨p, hp, by omega⟩⟩

theorem mem_uprow_sources {c : Config} {tr j : Nat} : j ∈ (uprowMoves c tr).map Prod.snd ↔ j < c.w / 8 * 16 := by
  simp only [List.mem_map, mem_uprowMoves]
  constructor
  · rintro ⟨_, ⟨tc, k, htc, hk, rfl⟩, rfl⟩
    simp only
    omega
  · exact fun hj => ⟨_, ⟨j / 16, j % 16, by omega, by omega, rfl⟩, by simp only; omega⟩

theorem mem_upline_sources {c : Config} {y j : Nat} :
    j ∈ (uplineMoves c y).map Prod.snd ↔ j < c.w / 8 * 16 ∧ j % 16 / 2 = y % 8 := by
  simp only [List.mem_map, mem_uplineMoves]
  constructor
  · rintro ⟨_, ⟨tc, b, htc, hb, rfl⟩, rfl⟩
    simp only
    omega
  · exact fun ⟨hj, hline⟩ => ⟨_, ⟨j / 16, j % 2, by omega, by omega, rfl⟩, by simp only; omega⟩

theorem mem_storerow_sources {c : Config} {tr j : Nat} :
    j ∈ (storerowMoves c tr).map Prod.snd ↔ j < c.w / 8 * 16 := by
  simp only [List.mem_map, mem_storerowMoves]
  constructor
  · rintro ⟨_, ⟨j, hj, rfl⟩, rfl⟩
    exact hj
  · exact fun hj => ⟨_, ⟨j, hj, rfl⟩, rfl⟩

/-- The first address of tile row `tr` in DISP (rule R55). -/
def dispRow (c : Config) (tr : Nat) : Nat := (c.tileBase + tr * (c.w / 8)) * 16

/-- The first address of tile row `tr` in a cache (rule R55). -/
def cacheRow (c : Config) (tr : Nat) : Nat := tr * (c.w / 8) * 16

section
variable {s : State}

theorem effect_uprow_byte (hwf : (s.mem .disp).wf = true) (tr a : Nat) :
    (effect (.uprow tr) s).byte .disp a =
      if dispRow s.cfg tr ≤ a ∧ a - dispRow s.cfg tr < s.cfg.w / 8 * 16 then s.byte .rowbuf (a - dispRow s.cfg tr)
      else s.byte .disp a :=
  (State.copied_byte (src := .rowbuf) (off := dispRow s.cfg tr) hwf (uprowMoves_offset s.cfg tr) a).trans
    (by simp only [mem_uprow_sources])

theorem effect_upline_byte (hwf : (s.mem .disp).wf = true) (y a : Nat) :
    (effect (.upline y) s).byte .disp a =
      if dispRow s.cfg (y / 8) ≤ a ∧
          a - dispRow s.cfg (y / 8) < s.cfg.w / 8 * 16 ∧ (a - dispRow s.cfg (y / 8)) % 16 / 2 = y % 8 then
        s.byte .rowbuf (a - dispRow s.cfg (y / 8))
      else s.byte .disp a :=
  (State.copied_byte (src := .rowbuf) (off := dispRow s.cfg (y / 8)) hwf (uplineMoves_offset s.cfg y) a).trans
    (by simp only [mem_upline_sources])

theorem effect_storerow_byte {v : ViewId} (hwf : (s.mem (.cache v)).wf = true) (tr a : Nat) :
    (effect (.storerow v tr) s).byte (.cache v) a =
      if cacheRow s.cfg tr ≤ a ∧ a - cacheRow s.cfg tr < s.cfg.w / 8 * 16 then
        s.byte .rowbuf (a - cacheRow s.cfg tr)
      else s.byte (.cache v) a :=
  (State.copied_byte (src := .rowbuf) (off := cacheRow s.cfg tr) hwf (storerowMoves_offset s.cfg tr) a).trans
    (by simp only [mem_storerow_sources])

end

/-! ## PRERENDERL tile row by tile row -/

/-- What PRERENDERL does for scanline `y` (rule R79). -/
def scanlineCommands (v : ViewId) (y : Nat) : List Instr :=
  [.rendline y, .upline y] ++ (if y % 8 = 7 then [.storerow v (y / 8)] else [])

/-- The scanlines in order are, tile row by tile row, the eight scanlines of each. -/
theorem flatMap_scanlines {α : Type} (f : Nat → List α) (n : Nat) :
    (List.range (n * 8)).flatMap f =
      (List.range n).flatMap fun tr => (List.range 8).flatMap fun r => f (tr * 8 + r) := by
  induction n with
  | zero => rfl
  | succ n ih =>
    rw [Nat.succ_mul, List.range_add, List.flatMap_append, ih, List.range_succ (n := n), List.flatMap_append,
      List.flatMap_singleton, List.flatMap_map]

theorem expand_prerenderl (c : Config) (v : ViewId) :
    Pseudo.expand c (.prerenderl v) = .setview v ::
      (List.range c.th).flatMap fun tr => (List.range 8).flatMap fun r => scanlineCommands v (tr * 8 + r) := by
  rw [Pseudo.expand, c.h_eq, flatMap_scanlines]
  rfl

/-- The scanlines of a tile row are rendered and uploaded, and after the last the row is stored. -/
theorem tileRow_commands (v : ViewId) (tr : Nat) :
    ((List.range 8).flatMap fun r => scanlineCommands v (tr * 8 + r)) =
      ((List.range 8).flatMap fun r => [.rendline (tr * 8 + r), .upline (tr * 8 + r)]) ++ [.storerow v tr] := by
  have hlast : (tr * 8 + 7) / 8 = tr := by omega
  simp [scanlineCommands, List.range_succ, hlast]

/-! ## The states between the commands of a path -/

/-- A state between the commands that follow SETVIEW: what rendering reads is as in `s`, no copy waits, and the
memories are canonical. -/
structure Prerendering (s t : State) : Prop where
  cfg : t.cfg = s.cfg
  tab : t.tab = s.tab
  view : t.view = s.view
  vblank : t.vblank = true
  canonical : t.memoriesCanonical

/-- A raster or cache command in range has its effect, which keeps what the next command needs and changes the bytes of
its own space alone. -/
theorem Prerendering.run {s t : State} {i : Instr} {sp : Space} (h : Prerendering s t) (hw : writtenSpace i = some sp)
    (hr : inRange s.cfg i = true) :
    exec i t = .next (effect i t) ∧ Prerendering s (effect i t) ∧
      ∀ sp', sp ≠ sp' → (effect i t).byte sp' = t.byte sp' := by
  have hexec : exec i t = .next (effect i t) := by
    rw [exec_eq, h.cfg, if_pos hr, if_neg (by simp [h.vblank])]
  have htab := (exec_tab hexec).resolve_right fun ⟨hi, _⟩ => by simp [hi, writtenSpace] at hw
  have hview := (exec_view hexec).resolve_right fun ⟨v, hi, _⟩ => by simp [hi, writtenSpace] at hw
  obtain ⟨hcfg, hvblank, -⟩ := exec_inputs hexec
  refine ⟨hexec, ?_, fun sp' hsp => funext (exec_byte_of_not_written hexec (by simpa [hw] using hsp))⟩
  exact ⟨hcfg.trans h.cfg, htab.1.trans h.tab, hview.1.trans h.view, hvblank.trans h.vblank,
    exec_memoriesCanonical h.canonical hexec⟩

/-- Bytes with the first `k` pixel rows of tile row `tr`, rendered from the tables of `s`, laid over them at `off`. -/
def paintLines (s : State) (tr k off : Nat) (m : Nat → Option Byte) (a : Nat) : Option Byte :=
  if off ≤ a ∧ a - off < s.cfg.w / 8 * 16 ∧ (a - off) % 16 / 2 < k then
    some (rowByte s.cfg s.tab s.view tr (a - off))
  else m a

theorem paintLines_zero (s : State) (tr off : Nat) (m : Nat → Option Byte) : paintLines s tr 0 off m = m := by
  funext a
  simp [paintLines]

/-- Copying a whole rendered tile row lays its eight pixel rows over what was there. -/
theorem copy_row_eq_paintLines {s : State} {tr off : Nat} {src m : Nat → Option Byte}
    (hsrc : ∀ j, j < s.cfg.w / 8 * 16 → src j = some (rowByte s.cfg s.tab s.view tr j)) (a : Nat) :
    (if off ≤ a ∧ a - off < s.cfg.w / 8 * 16 then src (a - off) else m a) = paintLines s tr 8 off m a := by
  have hline : (a - off) % 16 / 2 < 8 := by omega
  simp only [paintLines, hline, and_true]
  exact ite_congr rfl (fun hin => hsrc _ hin.2) fun _ => rfl

/-- Copying one more rendered pixel row lays one more over what was there. -/
theorem copy_line_eq_paintLines {s : State} {tr k off : Nat} {src m : Nat → Option Byte}
    (hsrc : ∀ j, j < s.cfg.w / 8 * 16 → j % 16 / 2 < k + 1 → src j = some (rowByte s.cfg s.tab s.view tr j))
    (a : Nat) :
    (if off ≤ a ∧ a - off < s.cfg.w / 8 * 16 ∧ (a - off) % 16 / 2 = k then src (a - off)
      else paintLines s tr k off m a) = paintLines s tr (k + 1) off m a := by
  split
  case isTrue hline =>
    obtain ⟨hle, hlt, hk⟩ := hline
    rw [hsrc _ hlt (by omega), paintLines, if_pos ⟨hle, hlt, by omega⟩]
  case isFalse hother => exact if_congr (by omega) rfl rfl

/-- Bytes with the first `n` tile rows laid over them, tile row `tr` at `off tr`. -/
def paintRows (s : State) (off : Nat → Nat) (m : Nat → Option Byte) : Nat → Nat → Option Byte
  | 0 => m
  | n + 1 => paintLines s n 8 (off n) (paintRows s off m n)

/-- After `n` tile rows of a path: they are in DISP and in CACHE[v]. -/
structure RowsStored (s : State) (v : ViewId) (n : Nat) (t : State) : Prop where
  prerendering : Prerendering s t
  disp : t.byte .disp = paintRows s (dispRow s.cfg) (s.byte .disp) n
  cache : t.byte (.cache v) = paintRows s (cacheRow s.cfg) (s.byte (.cache v)) n

/-- Within tile row `tr`: its first `k` pixel rows are in ROWBUF and in DISP. -/
structure LinesUploaded (s : State) (v : ViewId) (tr k : Nat) (t : State) : Prop where
  prerendering : Prerendering s t
  rowbuf : ∀ j, j < s.cfg.w / 8 * 16 → j % 16 / 2 < k →
    t.byte .rowbuf j = some (rowByte s.cfg s.tab s.view tr j)
  disp : t.byte .disp = paintLines s tr k (dispRow s.cfg tr) (paintRows s (dispRow s.cfg) (s.byte .disp) tr)
  cache : t.byte (.cache v) = paintRows s (cacheRow s.cfg) (s.byte (.cache v)) tr

section
variable {s t : State} {v : ViewId} {tr : Nat}

theorem RowsStored.start (h : RowsStored s v tr t) : LinesUploaded s v tr 0 t where
  prerendering := h.prerendering
  rowbuf := nofun
  disp := by rw [paintLines_zero, h.disp]
  cache := h.cache

/-- RENDROW and UPROW upload a tile row. -/
theorem RowsStored.rendrow_uprow (h : RowsStored s v tr t) (htr : tr < s.cfg.th) :
    ∃ u, execAll [.rendrow tr, .uprow tr] t = .next u ∧ LinesUploaded s v tr 8 u := by
  obtain ⟨hrend, hready, hkeep⟩ := h.prerendering.run (i := .rendrow tr) rfl (decide_eq_true htr)
  obtain ⟨hup, hready', hkeep'⟩ := hready.run (i := .uprow tr) rfl (decide_eq_true htr)
  have hrow : ∀ j, j < s.cfg.w / 8 * 16 →
      (effect (.rendrow tr) t).byte .rowbuf j = some (rowByte s.cfg s.tab s.view tr j) := fun j hj => by
    rw [effect_rendrow_byte t (h.prerendering.cfg ▸ hj), h.prerendering.cfg, h.prerendering.tab, h.prerendering.view]
  refine ⟨_, by rw [execAll_cons hrend, execAll_cons hup, execAll], hready', fun j hj _ => ?_,
    funext fun a => ?_, ?_⟩
  · rw [hkeep' .rowbuf (by decide), hrow j hj]
  · rw [effect_uprow_byte (hready.canonical .disp), hready.cfg, hkeep .disp (by decide), h.disp]
    exact copy_row_eq_paintLines hrow a
  · rw [hkeep' _ (by simp), hkeep _ (by simp), h.cache]

/-- RENDLINE and UPLINE upload the next pixel row of a tile row. -/
theorem LinesUploaded.rendline_upline {k : Nat} (h : LinesUploaded s v tr k t) (htr : tr < s.cfg.th) (hk : k < 8) :
    ∃ u, execAll [.rendline (tr * 8 + k), .upline (tr * 8 + k)] t = .next u ∧ LinesUploaded s v tr (k + 1) u := by
  have hy : tr * 8 + k < s.cfg.h := by
    have := s.cfg.h_eq
    omega
  obtain ⟨hrend, hready, hkeep⟩ := h.prerendering.run (i := .rendline (tr * 8 + k)) rfl (decide_eq_true hy)
  obtain ⟨hup, hready', hkeep'⟩ := hready.run (i := .upline (tr * 8 + k)) rfl (decide_eq_true hy)
  have hrow : (tr * 8 + k) / 8 = tr := by omega
  have hline : (tr * 8 + k) % 8 = k := by omega
  have hrowbuf : ∀ j, j < s.cfg.w / 8 * 16 → j % 16 / 2 < k + 1 →
      (effect (.rendline (tr * 8 + k)) t).byte .rowbuf j = some (rowByte s.cfg s.tab s.view tr j) := fun j hj hjk => by
    rw [effect_rendline_byte, h.prerendering.cfg, h.prerendering.tab, h.prerendering.view, hrow, hline]
    split
    case isTrue => rfl
    case isFalse hother => exact h.rowbuf j hj (by omega)
  refine ⟨_, by rw [execAll_cons hrend, execAll_cons hup, execAll], hready', fun j hj hjk => ?_,
    funext fun a => ?_, ?_⟩
  · rw [hkeep' .rowbuf (by decide), hrowbuf j hj hjk]
  · rw [effect_upline_byte (hready.canonical .disp), hready.cfg, hrow, hline, hkeep .disp (by decide), h.disp]
    exact copy_line_eq_paintLines hrowbuf a
  · rw [hkeep' _ (by simp), hkeep _ (by simp), h.cache]

/-- STOREROW stores the tile row whose eight pixel rows are uploaded. -/
theorem LinesUploaded.storerow (h : LinesUploaded s v tr 8 t) (htr : tr < s.cfg.th) :
    ∃ u, execAll [.storerow v tr] t = .next u ∧ RowsStored s v (tr + 1) u := by
  obtain ⟨hstore, hready, hkeep⟩ := h.prerendering.run (i := .storerow v tr) rfl (decide_eq_true htr)
  refine ⟨_, by rw [execAll_cons hstore, execAll], hready, ?_, funext fun a => ?_⟩
  · rw [hkeep .disp (by simp), h.disp]
    rfl
  · rw [effect_storerow_byte (h.prerendering.canonical _), h.prerendering.cfg, h.cache]
    exact copy_row_eq_paintLines (fun j hj => h.rowbuf j hj (by omega)) a

/-- A tile row of PRERENDER. -/
theorem RowsStored.prerender_row (htr : tr < s.cfg.th) (h : RowsStored s v tr t) :
    ∃ u, execAll [.rendrow tr, .uprow tr, .storerow v tr] t = .next u ∧ RowsStored s v (tr + 1) u := by
  obtain ⟨t', huploaded, hlines⟩ := h.rendrow_uprow htr
  obtain ⟨u, hstored, hrows⟩ := hlines.storerow htr
  exact ⟨u, (execAll_append huploaded _).trans hstored, hrows⟩

/-- A tile row of PRERENDERL. -/
theorem RowsStored.prerenderl_row (htr : tr < s.cfg.th) (h : RowsStored s v tr t) :
    ∃ u, execAll ((List.range 8).flatMap fun r => scanlineCommands v (tr * 8 + r)) t = .next u ∧
      RowsStored s v (tr + 1) u := by
  obtain ⟨t', huploaded, hlines⟩ := execAll_blocks (P := LinesUploaded s v tr)
    (fun k hk _ hlines => hlines.rendline_upline htr hk) h.start
  obtain ⟨u, hstored, hrows⟩ := hlines.storerow htr
  exact ⟨u, by rw [tileRow_commands, execAll_append huploaded, hstored], hrows⟩

end

/-- Settles O57: after SETVIEW both paths store every tile row, and what that leaves in DISP and CACHE[v] is one
function of the state SETVIEW left. -/
theorem prerenderPathsAgree : Obligations.PrerenderPathsAgree := fun v s hv hs => by
  have hview : exec (.setview v) s = .next (effect (.setview v) s) := exec_eq_effect rfl rfl
  obtain ⟨hcfg, hvblank, -⟩ := exec_inputs hview
  have hstart : RowsStored (effect (.setview v) s) v 0 (effect (.setview v) s) :=
    ⟨⟨rfl, rfl, rfl, hvblank.trans hv, exec_memoriesCanonical hs.1 hview⟩, rfl, rfl⟩
  obtain ⟨t, ht, htRows⟩ := execAll_blocks (fun _ htr _ h => h.prerender_row htr) hstart
  obtain ⟨u, hu, huRows⟩ := execAll_blocks (fun _ htr _ h => h.prerenderl_row htr) hstart
  rw [hcfg] at ht hu htRows huRows
  refine ⟨t, u, ?_, ?_, fun a => ?_, fun a => ?_⟩
  · rw [Pseudo.expand, execAll_cons hview, ht]
  · rw [expand_prerenderl, execAll_cons hview, hu]
  · rw [htRows.cache, huRows.cache]
  · rw [htRows.disp, huRows.disp]

end Sys2Proof.Machine
end

section
/-! The fixed-point layer in integer arithmetic (40_fixed_point_mac.md rules R91 to R97): what each operation answers
and where it sets OVF. -/

namespace Sys2Proof.Machine

open Sys2Proof

/-! ## Delivering a flagged value -/

/-- OVF is recorded exactly where the value does not fit. -/
theorem State.noteOvf_eq_ite {b : Bool} {fits : Prop} [Decidable fits] (h : b = true ↔ ¬ fits) (s : State) :
    s.noteOvf b = { s with status := if fits then s.status else s.status ||| 0x0008 } := by
  by_cases hfits : fits
  · have hb : b = false := Bool.eq_false_iff.2 fun hb => h.1 hb hfits
    rw [hb, State.noteOvf_false, if_pos hfits]
  · rw [h.2 hfits, if_neg hfits]
    rfl

theorem narrow16_of_fits {v : Int} (h : fits16 v) : narrow16 v = .pure (BitVec.ofInt 16 v) :=
  congrArg (Flagged.mk _) (decide_eq_false (by omega))

theorem wrap32_of_fits {v : Int} (h : fits32 v) : wrap32 v = .pure (BitVec.ofInt 32 v) :=
  congrArg (Flagged.mk _) (decide_eq_false (by omega))

/-- A value that overflowed nowhere is delivered alone. -/
theorem State.commit_pure {α : Type} (a : α) (k : α → State → State) (s : State) : s.commit (.pure a) k = k a s := by
  rw [State.commit_eq, Flagged.pure_ovf, State.noteOvf_false, Flagged.pure_val]

/-- Settles O25. -/
theorem narrowKeepsLowSixteenBits : Obligations.NarrowKeepsLowSixteenBits := fun v => by
  refine ⟨?_, toInt_ofInt16, fun k s => ?_⟩
  · rw [narrow16_val, BitVec.toNat_ofInt]
    exact Int.toNat_of_nonneg (Int.emod_nonneg v (by decide))
  · have hovf : (narrow16 v).ovf = true ↔ ¬ ¬ (v < -32768 ∨ 32767 < v) := by
      rw [narrow16_ovf, decide_eq_true_iff, not_not]
    rw [State.commit_eq, State.noteOvf_eq_ite hovf, ite_not]

/-! ## Products -/

/-- A product of two 16-bit values is at most 2^30 in size. -/
theorem mul16_bounds (a b : I16) : -1073741824 ≤ a.toInt * b.toInt ∧ a.toInt * b.toInt ≤ 1073741824 := by
  obtain ⟨ha, ha'⟩ := toInt16_bounds a
  obtain ⟨hb, hb'⟩ := toInt16_bounds b
  exact mul_within (a := 32768) (b := 32768) ⟨ha, by omega⟩ ⟨hb, by omega⟩

theorem asr_eight (v : Int) : asr v 8 = v / 256 := rfl

theorem fxMul_eq (a b : I16) : fxMul a b = narrow16 (a.toInt * b.toInt / 256) := by
  rw [fxMul, asr_eight]

theorem fxMul_comm (a b : I16) : fxMul a b = fxMul b a := by
  rw [fxMul_eq, fxMul_eq, Int.mul_comm]

/-- Settles O26. -/
theorem fixedMultiplyFloors : Obligations.FixedMultiplyFloors := fun a b => by
  refine ⟨fxMul_eq a b, decide_eq_true_iff, fun hfits => ?_, fun c d hproduct => ?_⟩
  · rw [fxMul_eq, narrow16_ovf, decide_eq_false_iff_not] at hfits
    rw [fxMul_val, toInt_ofInt16 (by omega) (by omega)]
    omega
  · rw [fxMul_eq, fxMul_eq, hproduct]

/-- Multiplying by 1.0 changes nothing. -/
theorem fxMul_one (a : I16) : fxMul a 256 = .pure a := by
  rw [fxMul_eq, show (256 : I16).toInt = 256 from rfl, Int.mul_ediv_cancel _ (by decide),
    narrow16_of_fits (toInt16_bounds a), BitVec.ofInt_toInt]

theorem fxMul_zero (a : I16) : fxMul a 0 = .pure 0 := by
  rw [fxMul_eq, show (0 : I16).toInt = 0 from rfl, Int.mul_zero]
  rfl

/-- The floor of a negated quotient: the negated floor, one less where the division is not exact. -/
theorem neg_ediv_256 (p : Int) : -p / 256 = if p % 256 = 0 then -(p / 256) else -(p / 256) - 1 := by
  split <;> omega

/-- `fx_mul(-a, b)` against `fx_mul(a, b)`: the floor rounds both down (rule R107 (e)). -/
theorem fxMul_neg {a : I16} (ha : a ≠ 0x8000) (b : I16) :
    (fxMul (-a) b).val =
      if a.toInt * b.toInt % 256 = 0 then -(fxMul a b).val else -(fxMul a b).val - 1 := by
  have hneg : (-a).toInt = -a.toInt := BitVec.toInt_neg_of_ne_intMin ha
  rw [fxMul_val, fxMul_val, hneg, Int.neg_mul, neg_ediv_256]
  split
  · exact BitVec.ofInt_neg
  · rw [Int.sub_eq_add_neg, BitVec.ofInt_add, BitVec.ofInt_neg, BitVec.sub_eq_add_neg]
    rfl

/-! ## Conversions -/

/-- `fx_from_int` overflows exactly outside -128..127 (rule R93). -/
theorem fxFromInt_ovf_iff (n : Int) : (fxFromInt n).ovf = true ↔ ¬ (-128 ≤ n ∧ n ≤ 127) := by
  rw [fxFromInt, narrow16_ovf_iff]
  omega

theorem fxFromInt_of_fits {n : Int} (hlow : -128 ≤ n) (hhigh : n ≤ 127) :
    fxFromInt n = .pure (BitVec.ofInt 16 (n * 256)) :=
  narrow16_of_fits (by omega)

/-- The floor that `fx_to_int` answers is an integer from -128 to 127 (rule R94). -/
theorem toInt_ediv_256_bounds (a : I16) : -128 ≤ a.toInt / 256 ∧ a.toInt / 256 ≤ 127 := by
  obtain ⟨ha, ha'⟩ := toInt16_bounds a
  omega

/-- `fx_to_int` undoes `fx_from_int` where that is exact (rule R107 (c)). -/
theorem fxToInt_fxFromInt {n : Int} (hlow : -128 ≤ n) (hhigh : n ≤ 127) : fxToInt (BitVec.ofInt 16 (n * 256)) = n := by
  rw [fxToInt, toInt_ofInt16 (by omega) (by omega)]
  exact Int.mul_ediv_cancel n (by decide)

/-! ## Sums of products (rules R92, R97) -/

/-- One multiply-accumulate on the low 32 bits of a sum leaves the low 32 bits of the longer sum. -/
theorem macStep_ofInt_val (u : Int) (a b : I16) :
    (macStep (BitVec.ofInt 32 u) a b).val = BitVec.ofInt 32 (u + a.toInt * b.toInt) := by
  rw [macStep, wrap32_val, BitVec.ofInt_add, BitVec.ofInt_toInt, ← BitVec.ofInt_add]

/-- It overflows exactly where the longer sum does not fit, if the shorter one fits. -/
theorem macStep_ofInt_ovf_iff {u : Int} (hu : fits32 u) (a b : I16) :
    (macStep (BitVec.ofInt 32 u) a b).ovf = true ↔ ¬ fits32 (u + a.toInt * b.toInt) := by
  rw [macStep, wrap32_ovf_iff, toInt_ofInt32 hu.1 hu.2]

/-- On a cleared accumulator a multiply-accumulate is the exact product. -/
theorem macStep_zero (a b : I16) : macStep 0 a b = .pure (BitVec.ofInt 32 (a.toInt * b.toInt)) := by
  obtain ⟨hlow, hhigh⟩ := mul16_bounds a b
  rw [macStep, show (0 : I32).toInt = 0 from rfl, Int.zero_add, wrap32_of_fits (by omega)]

theorem macNarrow_eq (acc : I32) : macNarrow acc = narrow16 (acc.toInt / 256) := by
  rw [macNarrow, asr_eight]

/-- Reading back one product is `fx_mul` (rule R107 (a)). -/
theorem macNarrow_product (a b : I16) : macNarrow (BitVec.ofInt 32 (a.toInt * b.toInt)) = fxMul a b := by
  obtain ⟨hlow, hhigh⟩ := mul16_bounds a b
  rw [macNarrow_eq, toInt_ofInt32 (by omega) (by omega), fxMul_eq]

/-- `dot3(u, v)` shifts the low 32 bits of the sum of products once (rule R97). -/
theorem dot3_val (u v : Vec3) :
    (dot3 u v).val = BitVec.ofInt 16 ((BitVec.ofInt 32
      (u.x.toInt * v.x.toInt + u.y.toInt * v.y.toInt + u.z.toInt * v.z.toInt)).toInt / 256) := by
  rw [dot3, Flagged.bind_val, Flagged.bind_val, Flagged.bind_val, macStep_zero, Flagged.pure_val, macStep_ofInt_val,
    macStep_ofInt_val, macNarrow_eq, narrow16_val]

/-- `dot3(u, v)` overflows exactly where a partial sum does not fit 32 bits or the result does not fit 16: up to the
first sum that does not fit, the accumulator holds the exact sums. -/
theorem dot3_ovf_iff (u v : Vec3) :
    (dot3 u v).ovf = true ↔
      ¬ fits32 (u.x.toInt * v.x.toInt) ∨
      ¬ fits32 (u.x.toInt * v.x.toInt + u.y.toInt * v.y.toInt) ∨
      ¬ fits32 (u.x.toInt * v.x.toInt + u.y.toInt * v.y.toInt + u.z.toInt * v.z.toInt) ∨
      ¬ fits16 ((BitVec.ofInt 32
        (u.x.toInt * v.x.toInt + u.y.toInt * v.y.toInt + u.z.toInt * v.z.toInt)).toInt / 256) := by
  have hx : fits32 (u.x.toInt * v.x.toInt) := by
    obtain ⟨hlow, hhigh⟩ := mul16_bounds u.x v.x
    omega
  simp only [dot3, Flagged.bind_ovf, macStep_zero, Flagged.pure_val, Flagged.pure_ovf, macStep_ofInt_val,
    Bool.false_or, Bool.or_eq_true, macStep_ofInt_ovf_iff hx, macNarrow_eq, narrow16_ovf_iff]
  rw [or_iff_right (not_not_intro hx)]
  by_cases hxy : fits32 (u.x.toInt * v.x.toInt + u.y.toInt * v.y.toInt)
  · rw [macStep_ofInt_ovf_iff hxy]
  · exact iff_of_true (.inl hxy) (.inl hxy)

end Sys2Proof.Machine
end

section
/-! The arithmetic commands (40_fixed_point_mac.md rules R100 to R107): each leaves its one result, OVF exactly where it
does not fit, and nothing else changed. -/

namespace Sys2Proof.Machine

open Sys2Proof

/-! ## Each command as its operation of the fixed-point layer -/

theorem exec_fxint (sa : I16) (s : State) :
    exec (.fxint sa) s = .next (s.commit (fxFromInt sa.toInt) State.setR0) := rfl

theorem exec_fxtrunc (sa : I16) (s : State) :
    exec (.fxtrunc sa) s = .next (s.setR0 (BitVec.ofInt 16 (fxToInt sa))) := rfl

theorem exec_fxmul (sa sb : I16) (s : State) :
    exec (.fxmul sa sb) s = .next (s.commit (fxMul sa sb) State.setR0) := rfl

theorem exec_macclr (s : State) : exec .macclr s = .next s.clearAcc := rfl

theorem exec_mac (sa sb : I16) (s : State) :
    exec (.mac sa sb) s = .next (s.commit (macStep s.acc sa sb) State.setAcc) := rfl

theorem exec_macrd (s : State) : exec .macrd s = .next (s.commit (macNarrow s.acc) State.setR0) := rfl

/-! ## What each command leaves -/

/-- Settles O29. -/
theorem nopChangesNothing : Obligations.NopChangesNothing := fun _ => rfl

/-- Settles O30. -/
theorem conversionResults : Obligations.ConversionResults := by
  refine ⟨fun sa s => ?_, fun sa s => ⟨rfl, ?_, toInt_ediv_256_bounds sa⟩⟩
  · rw [exec_fxint, State.commit_eq, State.noteOvf_eq_ite (fxFromInt_ovf_iff sa.toInt)]
    rfl
  · obtain ⟨hlow, hhigh⟩ := toInt_ediv_256_bounds sa
    exact toInt_ofInt16 (by omega) (by omega)

/-- Settles O31. -/
theorem fxmulResult : Obligations.FxmulResult := fun sa sb s => by
  rw [exec_fxmul, State.commit_eq, fxMul_eq, State.noteOvf_eq_ite (narrow16_ovf_iff _)]
  rfl

/-- Settles O32. -/
theorem macUnitResults : Obligations.MacUnitResults := by
  refine ⟨fun _ => rfl, fun sa sb s => ?_, fun s => ?_⟩
  · rw [exec_mac, State.commit_eq, macStep, State.noteOvf_eq_ite (wrap32_ovf_iff _)]
    rfl
  · rw [exec_macrd, State.commit_eq, macNarrow, State.noteOvf_eq_ite (narrow16_ovf_iff _)]
    rfl

/-! ## The laws of rule R107 -/

/-- One product through the accumulator is FXMUL, but for what it leaves in ACC. -/
theorem execAll_mac_product (a b : I16) (s : State) :
    execAll [.macclr, .mac a b, .macrd] s =
      .next ((s.clearAcc.setAcc (BitVec.ofInt 32 (a.toInt * b.toInt))).commit (fxMul a b) State.setR0) := by
  rw [execAll_cons (exec_macclr s), execAll_cons (exec_mac a b _), State.clearAcc_acc, macStep_zero, State.commit_pure,
    execAll_cons (exec_macrd _), State.setAcc_acc, macNarrow_product]
  rfl

/-- The expansion of DOT3 (rule R79) leaves `dot3` of the operands in R0. -/
theorem execAll_dot3_r0 (u v : Vec3) (s : State) :
    ∃ t, execAll (Pseudo.expand s.cfg (.dot3 u.x v.x u.y v.y u.z v.z)) s = .next t ∧ t.r0 = (dot3 u v).val := by
  refine ⟨?_, ?run, ?_⟩
  case run =>
    rw [Pseudo.expand, execAll_cons (exec_macclr _), execAll_cons (exec_mac _ _ _), execAll_cons (exec_mac _ _ _),
      execAll_cons (exec_mac _ _ _), execAll_cons (exec_macrd _), execAll]
  · simp only [dot3, Flagged.bind_val, State.commit_eq, State.setR0_r0, State.setAcc_acc, State.clearAcc_acc]

/-- Settles O28. -/
theorem multiplyAccumulateLaws : Obligations.MultiplyAccumulateLaws := by
  refine ⟨fun a b s => ?_, fun a s => ⟨?_, ?_⟩, fun n s hlow hhigh => ?_, fun a b s => ?_, fun a b ha => ?_,
    execAll_dot3_r0⟩
  · exact ⟨_, _, execAll_mac_product a b s, exec_fxmul a b s, rfl, rfl⟩
  · rw [exec_fxmul, fxMul_one, State.commit_pure]
    rfl
  · rw [exec_fxmul, fxMul_zero, State.commit_pure]
    rfl
  · refine ⟨_, exec_fxint n s, ?_⟩
    rw [fxFromInt_of_fits hlow hhigh, State.commit_pure, State.setR0_r0, exec_fxtrunc, fxToInt_fxFromInt hlow hhigh,
      BitVec.ofInt_toInt]
    rfl
  · rw [exec_fxmul, exec_fxmul, fxMul_comm]
  · rw [fxMul_neg ha]
    exact ⟨fun h => if_pos h, fun h => if_neg h⟩

end Sys2Proof.Machine
end

section
/-! The brightness of a sphere pixel in integer arithmetic (42_intersect_shade.md rules R170 to R172): the normal, its
product with the light, and the Lambert term. -/

namespace Sys2Proof.Machine

open Sys2Proof

/-- A normal component is half of hit minus centre in 16-bit arithmetic, since NRM_SHIFT is 1 (rules R8, R170). -/
theorem normalCoord_half (c : Config) (t cam d centre : I16) :
    (normalCoord c t cam d centre).val =
      BitVec.ofInt 16 ((cam + BitVec.ofInt 16 (t.toInt * d.toInt / 256) - centre).toInt / 2) := by
  obtain ⟨-, -, hshift, -⟩ := c.shading
  rw [normalCoord_val, hshift, fxMul_val, asr, pow_one]

/-- Where a normal component overflows: in the product, in the hit coordinate, or in hit minus centre. -/
theorem normalCoord_ovf_iff (c : Config) (t cam d centre : I16) :
    (normalCoord c t cam d centre).ovf = true ↔
      ¬ fits16 (t.toInt * d.toInt / 256) ∨
      ¬ fits16 (cam.toInt + (BitVec.ofInt 16 (t.toInt * d.toInt / 256)).toInt) ∨
      ¬ fits16 ((BitVec.ofInt 16 (cam.toInt + (BitVec.ofInt 16 (t.toInt * d.toInt / 256)).toInt)).toInt -
        centre.toInt) := by
  rw [normalCoord_ovf, Bool.or_eq_true, Bool.or_eq_true, or_assoc, ← add16_val, fxMul_val, fxMul_eq, add16, sub16,
    narrow16_ovf_iff, narrow16_ovf_iff, narrow16_ovf_iff, narrow16_val]

theorem sphereNormal_val (c : Config) (g : GlobalTables) (x y : Nat) (t : I16) :
    (sphereNormal c g x y t).val =
      ⟨(normalCoord c t c.cam.x (elem16 g.dx x) sphC.x).val, (normalCoord c t c.cam.y (elem16 g.dy y) sphC.y).val,
        (normalCoord c t c.cam.z g.dz sphC.z).val⟩ := rfl

/-- The normal overflows exactly where one of its components does. -/
theorem sphereNormal_ovf_iff (c : Config) (g : GlobalTables) (x y : Nat) (t : I16) :
    (sphereNormal c g x y t).ovf = true ↔
      (normalCoord c t c.cam.x (elem16 g.dx x) sphC.x).ovf = true ∨
      (normalCoord c t c.cam.y (elem16 g.dy y) sphC.y).ovf = true ∨
      (normalCoord c t c.cam.z g.dz sphC.z).ovf = true := by
  simp only [sphereNormal, Flagged.bind_ovf, Flagged.map_ovf, Bool.or_eq_true]

/-- AMBIENT, plus the scaled diffuse term where the surface faces the light, at most 255: the lower clamp and the
narrowing to a byte lose nothing (rules R171, R172). -/
theorem lambert_toNat (c : Config) (ndl : I16) :
    ((lambert c ndl).toNat : Int) = if 0 < ndl.toInt then min 255 (50 + ndl.toInt * c.diffScale / 256) else 50 := by
  by_cases hlit : 0 < ndl.toInt
  · have hdiff : 0 ≤ ndl.toInt * c.diffScale / 256 :=
      Int.ediv_nonneg (mul_nonneg hlit.le (Int.natCast_nonneg _)) (by decide)
    have hbyte : lambert c ndl = BitVec.ofInt 8 (clamp (50 + ndl.toInt * c.diffScale / 256) 0 255) := by
      rw [lambert, if_pos hlit, asr_eight]
      rfl
    have hclamp : clamp (50 + ndl.toInt * c.diffScale / 256) 0 255 = min 255 (50 + ndl.toInt * c.diffScale / 256) := by
      unfold clamp
      split_ifs <;> omega
    rw [hbyte, hclamp, if_pos hlit, BitVec.toNat_ofInt]
    omega
  · rw [lambert, if_neg hlit, if_neg hlit]
    rfl

/-- Settles O44. -/
theorem sphereBrightnessIsLambert : Obligations.SphereBrightnessIsLambert := fun c g v x y t => by
  constructor
  · rw [sphereBrightness_val, lambert_toNat, dot3_val, sphereNormal_val, normalCoord_half, normalCoord_half,
      normalCoord_half]
    rfl
  · rw [sphereBrightness_ovf, Bool.or_eq_true, sphereNormal_ovf_iff, normalCoord_ovf_iff, normalCoord_ovf_iff,
      normalCoord_ovf_iff, dot3_ovf_iff, sphereNormal_val, normalCoord_half, normalCoord_half, normalCoord_half]
    exact or_assoc.trans (or_congr_right or_assoc)

end Sys2Proof.Machine
end

section
/-! The lookups and table reads (41_tables.md rules R140 to R145): the clamped indices in integer arithmetic, and what
SPHLUT, SHDLUT, RAYDIR and GNDROW leave in the result registers (O37, O39). -/

namespace Sys2Proof.Machine

open Sys2Proof

theorem clamp_eq_max_min (v : Int) {lo hi : Int} (h : lo ≤ hi) : clamp v lo hi = max lo (min hi v) := by
  unfold clamp
  split_ifs <;> omega

/-- `sph_index` in integer arithmetic (rule R140). -/
theorem sphIndex_eq (c : Config) (dd : Int) :
    sphIndex c dd = (max 0 (min 63 ((dd - c.sphMin) / 2 ^ c.sphShift))).toNat := by
  rw [sphIndex, clamp_eq_max_min _ (by decide)]
  rfl

/-- `shd_index` in integer arithmetic (rule R142). -/
theorem shdIndex_eq (c : Config) (d2 : Int) :
    shdIndex c d2 = (max 0 (min 127 (d2 / 2 ^ c.shdShift))).toNat := by
  rw [shdIndex, clamp_eq_max_min _ (by decide)]
  rfl

/-- Settles O37. -/
theorem lookupResults : Obligations.LookupResults := fun ab s => by
  refine ⟨?_, ?_⟩
  · rw [exec_eq_effect rfl rfl, effect, sphIndex_eq]
    rfl
  · rw [exec_eq_effect rfl rfl, effect, shdIndex_eq]
    rfl

/-- Settles O39: in range, each of the two commands has its effect. -/
theorem tableReadResults : Obligations.TableReadResults := by
  refine ⟨fun x y s hx hy => ?_, fun y s hy => ?_⟩
  · exact exec_eq_effect (decide_eq_true ⟨hx, hy⟩) rfl
  · exact exec_eq_effect (decide_eq_true hy) rfl

end Sys2Proof.Machine
end

section
/-! What INIT and SETVIEW read and write (41_tables.md rules R125, R135, R164): repeated, each changes nothing; neither
reads what an earlier one left in the tables it builds, and the intersector reads no part of the per-view state that
depends on the view (O34, O36, O42). -/

namespace Sys2Proof.Machine

open Sys2Proof

/-! ## Updates that find their work done -/

theorem or_twoPow_of_getLsbD {x : BitVec 16} {i : Nat} (h : x.getLsbD i = true) : x ||| BitVec.twoPow 16 i = x := by
  refine BitVec.eq_of_getLsbD_eq fun j hj => ?_
  rw [BitVec.getLsbD_or, BitVec.getLsbD_twoPow]
  by_cases hij : i = j
  · simp [← hij, h]
  · simp [hij]

section
variable {s : State}

theorem State.noteOvf_of_ovf {b : Bool} (h : b = true → s.ovf = true) : s.noteOvf b = s := by
  cases b with
  | false => exact s.noteOvf_false
  | true => exact congrArg (fun st => { s with status := st }) (or_twoPow_of_getLsbD (i := 3) (h rfl))

theorem State.setInitDone_of_initDone (h : s.initDone = true) : s.setInitDone = s :=
  congrArg (fun st => { s with status := st }) (or_twoPow_of_getLsbD (i := 0) h)

/-- Selecting the view that is selected changes nothing. -/
theorem State.setViewBits_of_viewId {v : ViewId} (hid : s.viewId = v) (hvalid : s.viewValid = true) :
    s.setViewBits v = s := by
  refine congrArg (fun st => { s with status := st }) (BitVec.eq_of_getLsbD_eq fun i hi => ?_)
  unfold State.viewId at hid
  unfold State.viewValid at hvalid
  subst hid
  cases hb : s.status.getLsbD 2 <;> interval_cases i <;> simp_all

end

/-! ## INIT -/

theorem exec_init (s : State) :
    exec .init s = .next (((s.noteOvf (buildGlobals s.cfg).ovf).setTab (buildGlobals s.cfg).val).setInitDone) := rfl

/-- Settles O34: the tables and the flags that a second INIT would write are there. -/
theorem initIsIdempotent : Obligations.InitIsIdempotent := fun s s' hcfg => by
  refine ⟨_, _, exec_init s, exec_init s', by simp [hcfg], ?_, by simp, by simp⟩
  generalize ht : ((s.noteOvf (buildGlobals s.cfg).ovf).setTab (buildGlobals s.cfg).val).setInitDone = t
  obtain ⟨hcfg', htab, hovf⟩ := exec_init_next (ht ▸ exec_init s)
  have hdone : t.initDone = true := ht ▸ State.setInitDone_initDone _
  rw [exec_init, hcfg', State.noteOvf_of_ovf (by simp +contextual [hovf]), ← htab]
  exact congrArg _ (State.setInitDone_of_initDone hdone)

/-! ## SETVIEW -/

theorem exec_setview (v : ViewId) (s : State) :
    exec (.setview v) s = .next (((s.noteOvf (buildView s.cfg s.tab v).ovf).setView
      (buildView s.cfg s.tab v).val).setViewBits v) := rfl

/-- Repeating a SETVIEW changes nothing. -/
theorem exec_setview_again {v : ViewId} {s t : State} (h : exec (.setview v) s = .next t) :
    exec (.setview v) t = .next t := by
  obtain ⟨hcfg, htab, hview, hovf⟩ := exec_setview_next h
  have hbits : t.viewId = v ∧ t.viewValid = true := by cases h; simp [State.commit_eq]
  rw [exec_setview, hcfg, htab, State.noteOvf_of_ovf (by simp +contextual [hovf]), ← hview]
  exact congrArg _ (State.setViewBits_of_viewId hbits.1 hbits.2)

/-- A list of SETVIEWs completes and leaves what the next SETVIEW reads. -/
theorem execAll_setviews (us : List ViewId) (s : State) :
    ∃ t, execAll (us.map .setview) s = .next t ∧ t.cfg = s.cfg ∧ t.tab = s.tab := by
  induction us generalizing s with
  | nil => exact ⟨s, rfl, rfl, rfl⟩
  | cons u us ih =>
    obtain ⟨hcfg, htab, -⟩ := exec_setview_next (exec_setview u s)
    obtain ⟨t, ht, hcfg', htab'⟩ := ih _
    exact ⟨t, (execAll_cons (exec_setview u s) _).trans ht, hcfg'.trans hcfg, htab'.trans htab⟩

/-- Settles O36. -/
theorem setviewForgetsEarlierViews : Obligations.SetviewForgetsEarlierViews := fun v s s' hcfg htab => by
  refine ⟨_, _, exec_setview v s, exec_setview v s', ?_, exec_setview_again (exec_setview v s), fun us => ?_⟩
  · simp [hcfg, htab]
  · obtain ⟨t, ht, hcfg', htab'⟩ := execAll_setviews us s
    refine ⟨_, (execAll_append ht _).trans (execAll_cons (exec_setview v t) []), ?_⟩
    simp [hcfg', htab']

/-! ## ISECT -/

/-- The intersector reads GHIT and GT alone of the per-view state. -/
theorem intersect_of_view {c : Config} {g : GlobalTables} {w w' : ViewTables} (hghit : w.ghit = w'.ghit)
    (hgt : w.gt = w'.gt) (x y : Nat) : intersect c g w x y = intersect c g w' x y := by
  unfold intersect
  rw [hghit, hgt]

/-- The ground table is the same for both views (rule R133). -/
theorem intersect_buildView (c : Config) (g : GlobalTables) (v v' : ViewId) (x y : Nat) :
    intersect c g (buildView c g v).val x y = intersect c g (buildView c g v').val x y :=
  intersect_of_view (by rw [buildView_ghit, buildView_ghit]) (by rw [buildView_gt, buildView_gt]) x y

theorem exec_isect {x y : Nat} {s : State} (hx : x < s.cfg.w) (hy : y < s.cfg.h) :
    exec (.isect x y) s = .next (s.commit (intersect s.cfg s.tab s.view x y) fun k =>
      State.setR012 k.kind.code k.t (natWord k.idx)) :=
  exec_eq_effect (decide_eq_true ⟨hx, hy⟩) rfl

/-- Settles O42. -/
theorem geometryDoesNotDependOnTheView : Obligations.GeometryDoesNotDependOnTheView := fun x y s hx hy => by
  refine ⟨_, _, _, _, exec_setview .front s, exec_setview .back s, exec_isect (by simpa) (by simpa),
    exec_isect (by simpa) (by simpa), ?_⟩
  simp [State.commit_eq, intersect_buildView s.cfg s.tab .front .back]

end Sys2Proof.Machine
end

section
/-! INIT's tables in integer arithmetic (41_tables.md rules R120 to R124; O33): what each table element is, and which of
INIT's narrowings can overflow under the constraints of rule R8. -/

namespace Sys2Proof.Machine

open Sys2Proof

theorem fxMul_ovf_iff (a b : I16) : (fxMul a b).ovf = true ↔ ¬ fits16 (a.toInt * b.toInt / 256) := by
  rw [fxMul_eq, narrow16_ovf_iff]

/-- A flag is set somewhere on a table built index by index. -/
theorem any_range_iff {P : Nat → Prop} {f : Nat → Bool} {n : Nat} (h : ∀ i, f i = true ↔ P i) :
    (List.range n).any f = true ↔ ∃ i, i < n ∧ P i := by
  simp only [List.any_eq_true, List.mem_range, h]

/-! ## The ray tables (rule R121) -/

/-- A direction component within rule R8's bound fits 16 bits, and so does its square. -/
theorem direction_is {v : Int} (h : within 2896 v) :
    (narrow16 v).Is16 v ∧ (fxMul (narrow16 v).val (narrow16 v).val).Is16 (v ^ 2 / 256) := by
  have hv : (narrow16 v).Is16 v := narrow16_is (by omega)
  have hsq := mul_within h h
  have hmul := fxMul_is (a := (narrow16 v).val) (b := (narrow16 v).val)
  rw [hv.2] at hmul
  rw [pow_two]
  exact ⟨hv, hmul (by omega)⟩

/-- An offset from the middle of the window, times DSTEP, is within rule R8's bound. -/
theorem direction_within (c : Config) {d : Int} (h : within ((max c.w c.h / 2 : Nat) : Int) d) :
    within 2896 (d * c.dstep) := by
  obtain ⟨-, hmax, -⟩ := c.ray
  have hbound : ((max c.w c.h / 2 : Nat) : Int) * c.dstep ≤ 2896 := by exact_mod_cast hmax
  have hprod := mul_within h (v := (c.dstep : Int)) (b := c.dstep) (by constructor <;> omega)
  constructor <;> omega

theorem rayX_within {c : Config} {x : Nat} (hx : x < c.w) :
    within 2896 (((x : Int) - ((c.w / 2 : Nat) : Int)) * c.dstep) := by
  obtain ⟨heven, -⟩ := c.window
  exact direction_within c (by constructor <;> omega)

theorem rayY_within {c : Config} {y : Nat} (hy : y < c.h) :
    within 2896 ((((c.h / 2 : Nat) : Int) - (y : Int)) * c.dstep) := by
  obtain ⟨-, -, -, heven, -⟩ := c.window
  exact direction_within c (by constructor <;> omega)

/-- DX and DX2 at a pixel column. -/
theorem buildGlobals_dx_getD {c : Config} {x : Nat} (hx : x < c.w) :
    ((buildGlobals c).val.dx.getD x 0).toInt = ((x : Int) - c.w / 2) * c.dstep ∧
    ((buildGlobals c).val.dx2.getD x 0).toInt = (((x : Int) - c.w / 2) * c.dstep) ^ 2 / 256 := by
  obtain ⟨⟨-, hval⟩, -, hsq⟩ := direction_is (rayX_within hx)
  rw [buildGlobals_dx, buildGlobals_dx2, getD_range _ _ _ _ hx, getD_range _ _ _ _ hx]
  exact ⟨hval, hsq⟩

/-- DY and DY2 at a scanline. -/
theorem buildGlobals_dy_getD {c : Config} {y : Nat} (hy : y < c.h) :
    ((buildGlobals c).val.dy.getD y 0).toInt = (c.h / 2 - (y : Int)) * c.dstep ∧
    ((buildGlobals c).val.dy2.getD y 0).toInt = ((c.h / 2 - (y : Int)) * c.dstep) ^ 2 / 256 := by
  obtain ⟨⟨-, hval⟩, -, hsq⟩ := direction_is (rayY_within hy)
  rw [buildGlobals_dy, buildGlobals_dy2, getD_range _ _ _ _ hy, getD_range _ _ _ _ hy]
  exact ⟨hval, hsq⟩

/-- No element of the ray tables overflows. -/
theorem rayTables_ovf (c : Config) :
    ((List.range c.w).any fun x => (rayX c x).ovf) = false ∧
    ((List.range c.w).any fun x => (fxMul (rayX c x).val (rayX c x).val).ovf) = false ∧
    ((List.range c.h).any fun y => (rayY c y).ovf) = false ∧
    ((List.range c.h).any fun y => (fxMul (rayY c y).val (rayY c y).val).ovf) = false := by
  simp only [List.any_eq_false, List.mem_range, Bool.not_eq_true]
  exact ⟨fun _ hx => (direction_is (rayX_within hx)).1.1, fun _ hx => (direction_is (rayX_within hx)).2.1,
    fun _ hy => (direction_is (rayY_within hy)).1.1, fun _ hy => (direction_is (rayY_within hy)).2.1⟩

/-! ## The sphere scalars (rule R122) -/

/-- oc lies along z, since the camera shares the sphere's x and y (rule R8). -/
theorem buildOc_eq (c : Config) : buildOc c = (narrow16 (1536 - c.cam.z.toInt)).map fun z => ⟨0, 0, z⟩ := by
  obtain ⟨hx, hy, -⟩ := c.camera
  rw [buildOc, hx, hy]
  rfl

theorem ocOf_eq (c : Config) : ocOf c = ⟨0, 0, BitVec.ofInt 16 (1536 - c.cam.z.toInt)⟩ := by
  rw [ocOf, buildOc_eq]
  rfl

theorem buildOc_ovf_iff (c : Config) : (buildOc c).ovf = true ↔ ¬ fits16 (1536 - c.cam.z.toInt) := by
  rw [buildOc_eq, Flagged.map_ovf, narrow16_ovf_iff]

/-- The dot product of a vector along z with itself is `fx_mul` of its z. -/
theorem dot3_along_z (z : I16) :
    (dot3 ⟨0, 0, z⟩ ⟨0, 0, z⟩).val = BitVec.ofInt 16 (z.toInt * z.toInt / 256) ∧
    ((dot3 ⟨0, 0, z⟩ ⟨0, 0, z⟩).ovf = true ↔ ¬ fits16 (z.toInt * z.toInt / 256)) := by
  obtain ⟨hlow, hhigh⟩ := mul16_bounds z z
  have hsum : (0 : I16).toInt * (0 : I16).toInt + (0 : I16).toInt * (0 : I16).toInt + z.toInt * z.toInt =
      z.toInt * z.toInt := Int.zero_add _
  have hx : fits32 ((0 : I16).toInt * (0 : I16).toInt) := by decide
  have hxy : fits32 ((0 : I16).toInt * (0 : I16).toInt + (0 : I16).toInt * (0 : I16).toInt) := by decide
  rw [dot3_val, dot3_ovf_iff, hsum, toInt_ofInt32 (by omega) (by omega), or_iff_right (not_not_intro hx),
    or_iff_right (not_not_intro hxy), or_iff_right (not_not_intro (by omega))]
  exact ⟨rfl, Iff.rfl⟩

/-- OC2 is at least R2C and fits, so OC2 − R2C does too. -/
theorem oc2_sub_r2c (c : Config) :
    (sub16 (buildGlobals c).val.oc2 (buildGlobals c).val.r2c).Is16 ((buildGlobals c).val.oc2.toInt - 1024) := by
  obtain ⟨-, -, -, -, -, hfar⟩ := c.camera
  have hoc2 : c.oc2 = (buildGlobals c).val.oc2.toInt := by
    rw [buildGlobals_oc2, ocOf_eq, (dot3_along_z _).1]
    rfl
  have hr2 : sphR.toInt * sphR.toInt / 256 = 1024 := by decide
  rw [hoc2, hr2] at hfar
  obtain ⟨-, hmax⟩ := toInt16_bounds (buildGlobals c).val.oc2
  exact sub16_is rfl (by rw [buildGlobals_r2c]; rfl) (by omega)

/-! ## The sphere tables (rule R123) -/

theorem isqrt_eq_sqrt (n : Nat) : isqrt n = Nat.sqrt n := by
  obtain ⟨hlow, hhigh⟩ := isqrtIsFloorSquareRoot n
  exact Nat.eq_sqrt.2 ⟨hlow, hhigh⟩

theorem sphBucket_cast (c : Config) (i : Nat) : (sphBucket c i : Int) = c.sphMin + i * 2 ^ c.sphShift := by
  rw [sphBucket]
  push_cast
  rfl

/-- The discriminant of rule R123 at bucket `i`, in integer arithmetic. -/
theorem sphDisc_eq {c : Config} {ocd cterm : I16} {k : Int} (hk : cterm.toInt = k) (i : Nat) :
    sphDisc c ocd cterm i = ocd.toInt ^ 2 - (c.sphMin + i * 2 ^ c.sphShift) * k := by
  rw [sphDisc, sphBucket_cast, hk, pow_two]

theorem sphP2Entry_eq (c : Config) (ocd : I16) (i : Nat) :
    sphP2Entry c ocd i = narrow16 (ocd.toInt ^ 2 / (c.sphMin + i * 2 ^ c.sphShift)) := by
  rw [sphP2Entry, sphBucket_cast, pow_two]

theorem sphP2Entry_ovf_iff (c : Config) (ocd : I16) (i : Nat) :
    (sphP2Entry c ocd i).ovf = true ↔ ¬ fits16 (ocd.toInt ^ 2 / (c.sphMin + i * 2 ^ c.sphShift)) := by
  rw [sphP2Entry_eq, narrow16_ovf_iff]

theorem sphTEntry_eq {c : Config} {ocd cterm : I16} {k : Int} (hk : cterm.toInt = k) (i : Nat) :
    sphTEntry c ocd cterm i =
      let dd : Int := c.sphMin + i * 2 ^ c.sphShift
      let disc : Int := ocd.toInt ^ 2 - dd * k
      if disc < 0 then .pure c.tMiss else narrow16 ((ocd.toInt - (Nat.sqrt disc.toNat : Int)) * 256 / dd) := by
  simp only [sphTEntry, sphDisc_eq hk, sphBucket_cast, isqrt_eq_sqrt, ← not_lt, ite_not]

/-- A computed entry of SPH_T overflows where its root does not fit; T_MISS never does. -/
theorem sphTEntry_ovf_iff {c : Config} {ocd cterm : I16} {k : Int} (hk : cterm.toInt = k) (i : Nat) :
    (sphTEntry c ocd cterm i).ovf = true ↔
      let dd : Int := c.sphMin + i * 2 ^ c.sphShift
      let disc : Int := ocd.toInt ^ 2 - dd * k
      0 ≤ disc ∧ ¬ fits16 ((ocd.toInt - (Nat.sqrt disc.toNat : Int)) * 256 / dd) := by
  rw [sphTEntry_eq hk]
  dsimp only
  split_ifs with hmiss
  · exact iff_of_false (by simp) (fun h => absurd h.1 (not_le.2 hmiss))
  · rw [narrow16_ovf_iff, and_iff_right (not_lt.1 hmiss)]

/-- SPH_P2 and SPH_T at a bucket. -/
theorem buildGlobals_sph_getD (c : Config) {i : Nat} (hi : i < 64) :
    let g := (buildGlobals c).val
    let dd : Int := c.sphMin + i * 2 ^ c.sphShift
    let disc : Int := g.ocd.toInt ^ 2 - dd * (g.oc2.toInt - 1024)
    g.sphP2.getD i 0 = BitVec.ofInt 16 (g.ocd.toInt ^ 2 / dd) ∧
    g.sphT.getD i 0 =
      if disc < 0 then c.tMiss else BitVec.ofInt 16 ((g.ocd.toInt - (Nat.sqrt disc.toNat : Int)) * 256 / dd) := by
  dsimp only
  rw [buildGlobals_sphP2, buildGlobals_sphT, getD_range _ _ _ _ hi, getD_range _ _ _ _ hi, sphP2Entry_eq,
    sphTEntry_eq (oc2_sub_r2c c).2]
  exact ⟨rfl, apply_ite Flagged.val ..⟩

/-! ## INIT -/

/-- INIT overflows exactly in DZ2, oc.z, OC2, OCD or an entry of the sphere tables. -/
theorem buildGlobals_ovf_iff (c : Config) :
    (buildGlobals c).ovf = true ↔
      let g := (buildGlobals c).val
      let dz : Int := c.rayDz.toInt
      let oz : Int := (BitVec.ofInt 16 (1536 - c.cam.z.toInt)).toInt
      ¬ fits16 (dz * dz / 256) ∨ ¬ fits16 (1536 - c.cam.z.toInt) ∨ ¬ fits16 (oz * oz / 256) ∨ ¬ fits16 (oz * dz / 256) ∨
      ∃ i : Nat, i < 64 ∧
        let dd : Int := c.sphMin + i * 2 ^ c.sphShift
        let disc : Int := g.ocd.toInt ^ 2 - dd * (g.oc2.toInt - 1024)
        ¬ fits16 (g.ocd.toInt ^ 2 / dd) ∨
        (0 ≤ disc ∧ ¬ fits16 ((g.ocd.toInt - (Nat.sqrt disc.toNat : Int)) * 256 / dd)) := by
  obtain ⟨hdx, hdx2, hdy, hdy2⟩ := rayTables_ovf c
  have hr2c : (fxMul sphR sphR).ovf = false := by decide
  dsimp only
  rw [buildGlobals_ovf, hdx, hdx2, hdy, hdy2, hr2c, (oc2_sub_r2c c).1, ocOf_eq]
  simp only [Bool.or_false, Bool.or_eq_true, fxMul_ovf_iff, buildOc_ovf_iff, (dot3_along_z _).2, or_assoc,
    any_range_iff (sphP2Entry_ovf_iff c (buildGlobals c).val.ocd), any_range_iff (sphTEntry_ovf_iff (oc2_sub_r2c c).2)]
  simp only [and_or_left, exists_or]

/-- INIT's update keeps all but the global tables, INIT_DONE and OVF (rule R120). -/
theorem State.setTab_setInitDone_frame (g : GlobalTables) (b : Bool) (s : State) :
    let t := ((s.noteOvf b).setTab g).setInitDone
    t = { s with tab := t.tab, status := s.status ||| 1 ||| (t.status &&& 8) } := by
  refine congrArg (fun st => { s with tab := g, status := st }) (BitVec.eq_of_getLsbD_eq fun i hi => ?_)
  cases b <;> interval_cases i <;> simp

/-- Settles O33. -/
theorem initBuildsTheGlobalTables : Obligations.InitBuildsTheGlobalTables := fun s => by
  obtain ⟨hdxLen, hdx2Len, hdyLen, hdy2Len, hsphTLen, hsphP2Len, hshdLen⟩ := buildGlobals_sized s.cfg
  refine ⟨_, exec_init s, State.setTab_setInitDone_frame _ _ s, by simp, ?_⟩
  simp only [State.setInitDone_tab, State.setTab_tab, State.setInitDone_ovf, State.setTab_ovf, State.noteOvf_ovf]
  refine ⟨buildGlobals_dz _, ?_, hdxLen, hdx2Len, fun x hx => buildGlobals_dx_getD hx, hdyLen, hdy2Len,
    fun y hy => buildGlobals_dy_getD hy, ?_, ?_, buildGlobals_r2c _, hsphTLen, hsphP2Len,
    fun i hi => buildGlobals_sph_getD _ hi, hshdLen, fun i hi => ?_, ?_⟩
  · rw [buildGlobals_dz2, fxMul_val]
  · rw [buildGlobals_oc2, ocOf_eq, (dot3_along_z _).1]
  · rw [buildGlobals_ocd, ocOf_eq, fxMul_val]
  · rw [buildGlobals_shd, getD_range _ _ _ _ hi, shdEntry_toNat]
    rfl
  · rw [Bool.or_eq_true, buildGlobals_ovf_iff]

end Sys2Proof.Machine
end

section
/-! SETVIEW's tables in integer arithmetic (41_tables.md rules R130 to R134; O35): a row of the ground table with its
shadow term, and where a row overflows. The light and the shadow centre are one of two constants each. -/

namespace Sys2Proof.Machine

open Sys2Proof

/-- The light and the shadow centre of each view (rules R131, R132). -/
theorem buildView_centre (c : Config) (g : GlobalTables) (v : ViewId) :
    ((buildView c g v).val.light, (buildView c g v).val.sx, (buildView c g v).val.sz) =
      match v with
      | .front => ((⟨-128, 179, 128⟩ : Vec3), (366 : I16), (1170 : I16))
      | .back => ((⟨128, 179, -128⟩ : Vec3), (-366 : I16), (1902 : I16)) := by
  rw [buildView_light, buildView_sx, buildView_sz]
  cases v <;> decide

theorem add16_ovf_iff (a b : I16) : (add16 a b).ovf = true ↔ ¬ fits16 (a.toInt + b.toInt) := narrow16_ovf_iff _

theorem sub16_ovf_iff (a b : I16) : (sub16 a b).ovf = true ↔ ¬ fits16 (a.toInt - b.toInt) := narrow16_ovf_iff _

/-! ## A row of the ground table (rule R133) -/

/-- The condition of a ground hit on a row with direction `dy`, the camera being 2.0 above the ground. -/
abbrev GroundHits (c : Config) (dy : Int) : Prop :=
  dy ≤ -(c.gndDyMin : Int) ∧ 0 < 131072 / -dy ∧ 131072 / -dy ≤ (c.gndTMax : Int)

theorem groundT_eq (c : Config) (dy : I16) : groundT c dy = 131072 / -dy.toInt := by
  obtain ⟨-, hy, -⟩ := c.camera
  rw [groundT, hy]
  rfl

section
variable {c : Config} {dy dz : I16}

/-- A row with a ground hit: the parameter as a 16-bit value, and the ground point by a product and a sum. -/
theorem groundRow_of_hits (h : GroundHits c dy.toInt) :
    groundRow c dy dz = (fxMul (BitVec.ofInt 16 (131072 / -dy.toInt)) dz).bind fun m =>
      (add16 c.cam.z m).map fun z => ⟨true, BitVec.ofInt 16 (131072 / -dy.toInt), z⟩ := by
  rw [groundRow, groundT_eq, if_pos h]

theorem groundRow_of_not_hits (h : ¬ GroundHits c dy.toInt) : groundRow c dy dz = .pure ⟨false, 0, 0⟩ := by
  rw [groundRow, groundT_eq, if_neg h]

/-- The parameter of a ground hit is at most GND_T_MAX, so it survives its narrowing. -/
theorem GroundHits.toInt_t {d : Int} (h : GroundHits c d) :
    (BitVec.ofInt 16 (131072 / -d)).toInt = 131072 / -d := by
  obtain ⟨-, hpos, hmax⟩ := h
  obtain ⟨-, htmax, -⟩ := c.shading
  exact toInt_ofInt16 (by omega) (by omega)

theorem groundRow_val_of_hits (h : GroundHits c dy.toInt) :
    (groundRow c dy dz).val = ⟨true, BitVec.ofInt 16 (131072 / -dy.toInt),
      c.cam.z + BitVec.ofInt 16 (131072 / -dy.toInt * dz.toInt / 256)⟩ := by
  rw [groundRow_of_hits h, Flagged.bind_val, Flagged.map_val, add16_val, fxMul_val, h.toInt_t]

/-- The squared offset of a ground point from the shadow centre (rule R134), kept wide. -/
theorem shadowRow_val_of_hit {sz : I16} {r : GroundRow} (h : r.hit = true) :
    (shadowRow sz r).val.toInt = (r.z - sz).toInt ^ 2 / 256 := by
  rw [shadowRow, if_pos h, Flagged.map_val, sub16_val, sq32_toInt]

/-- Where row and shadow term overflow: on a ground hit, in the product, in the ground point or in its offset from the
shadow centre. -/
theorem groundRow_shadowRow_ovf_iff (sz : I16) :
    (groundRow c dy dz).ovf = true ∨ (shadowRow sz (groundRow c dy dz).val).ovf = true ↔
      (groundRow c dy dz).val.hit = true ∧
        let m : Int := (groundRow c dy dz).val.t.toInt * dz.toInt / 256
        ¬ fits16 m ∨ ¬ fits16 (c.cam.z.toInt + (BitVec.ofInt 16 m).toInt) ∨
          ¬ fits16 ((groundRow c dy dz).val.z.toInt - sz.toInt) := by
  by_cases h : GroundHits c dy.toInt
  · rw [groundRow_of_hits h]
    simp only [shadowRow, if_true, Flagged.bind_val, Flagged.bind_ovf, Flagged.map_val, Flagged.map_ovf,
      Bool.or_eq_true, fxMul_ovf_iff, add16_ovf_iff, sub16_ovf_iff, fxMul_val, true_and, or_assoc]
  · rw [groundRow_of_not_hits h]
    simp [shadowRow]

end

/-! ## The per-view state row by row -/

/-- Row `y` of the four tables is row `y` of the ground table and its shadow term. -/
theorem buildView_row {c : Config} {g : GlobalTables} (v : ViewId) {y : Nat} (hy : y < c.h) :
    let w := (buildView c g v).val
    let r := (groundRow c (g.dy.getD y 0) g.dz).val
    w.ghit.getD y false = r.hit ∧ w.gt.getD y 0 = r.t ∧ w.gz.getD y 0 = r.z ∧
      w.sdz2.getD y 0 = (shadowRow w.sz r).val := by
  dsimp only
  rw [buildView_ghit, buildView_gt, buildView_gz, buildView_sdz2, rowsOf_getD _ _ _ _ _ hy, rowsOf_getD _ _ _ _ _ hy,
    rowsOf_getD _ _ _ _ _ hy, rowsOf_getD _ _ _ _ _ hy]
  exact ⟨rfl, rfl, rfl, rfl⟩

/-- SETVIEW overflows exactly where a row with a ground hit does. -/
theorem buildView_ovf_iff (c : Config) (g : GlobalTables) (v : ViewId) :
    (buildView c g v).ovf = true ↔
      let w := (buildView c g v).val
      ∃ y, y < c.h ∧ w.ghit.getD y false = true ∧
        let m : Int := (w.gt.getD y 0).toInt * g.dz.toInt / 256
        ¬ fits16 m ∨ ¬ fits16 (c.cam.z.toInt + (BitVec.ofInt 16 m).toInt) ∨
          ¬ fits16 ((w.gz.getD y 0).toInt - w.sz.toInt) := by
  rw [buildView_ovf, rowsOf, List.any_map, Bool.or_eq_true, any_range_iff fun _ => Iff.rfl,
    any_range_iff fun _ => Iff.rfl, ← exists_or]
  refine exists_congr fun y => ?_
  rw [← and_or_left]
  refine and_congr_right fun hy => ?_
  obtain ⟨hghit, hgt, hgz, -⟩ := buildView_row (g := g) v hy
  dsimp only
  rw [hghit, hgt, hgz]
  exact groundRow_shadowRow_ovf_iff _

/-! ## SETVIEW -/

/-- SETVIEW's STATUS: VIEW and VIEW_VALID replaced, OVF sticky, the rest kept (rule R130). -/
theorem State.setViewBits_status_eq (v : ViewId) (w : ViewTables) (b : Bool) (s : State) :
    let t := ((s.noteOvf b).setView w).setViewBits v
    t.status = (s.status &&& 0xFFFB) ||| (match v with | .front => 2 | .back => 6) ||| (t.status &&& 8) := by
  refine BitVec.eq_of_getLsbD_eq fun i hi => ?_
  cases v <;> cases b <;> interval_cases i <;> simp

/-- Settles O35. -/
theorem setviewBuildsTheViewState : Obligations.SetviewBuildsTheViewState := fun v s => by
  obtain ⟨hghitLen, hgtLen, hgzLen, hsdz2Len⟩ := buildView_sized s.cfg s.tab v
  refine ⟨_, exec_setview v s, rfl, State.setViewBits_status_eq v _ _ s, buildView_centre _ _ v, hghitLen, hgtLen,
    hgzLen, hsdz2Len, fun y hy => ?_, ?_⟩
  · obtain ⟨hghit, hgt, hgz, hsdz2⟩ := buildView_row (g := s.tab) v hy
    dsimp only [State.setViewBits_view, State.setView_view]
    rw [hghit, hgt, hgz, hsdz2]
    split
    case isTrue hhit =>
      have hhit : GroundHits s.cfg (s.tab.dy.getD y 0).toInt := hhit
      rw [groundRow_val_of_hits hhit]
      exact ⟨rfl, hhit.toInt_t, rfl, shadowRow_val_of_hit rfl⟩
    case isFalse hmiss =>
      rw [groundRow_of_not_hits hmiss]
      exact ⟨rfl, rfl, rfl, rfl⟩
  · rw [State.setViewBits_ovf, State.setView_ovf, State.noteOvf_ovf, Bool.or_eq_true, buildView_ovf_iff]
    rfl

end Sys2Proof.Machine
end

section
/-! The intersector (42_intersect_shade.md rules R160 to R166; O40, O41): which surface wins, and what ISECT leaves in
the result registers. -/

namespace Sys2Proof.Machine

open Sys2Proof

/-- The nearer surface wins, a tie goes to the ground, and without a hit it is sky (rule R163). -/
theorem selectHit_eq (sph gnd : Bool) (ts tg : I16) :
    selectHit sph ts gnd tg =
      if sph = true ∧ (¬ gnd = true ∨ ts.toInt < tg.toInt) then (.sphere, ts)
      else if gnd = true then (.ground, tg)
      else (.sky, 0) := by
  simp [selectHit]

/-- Settles O40. -/
theorem tieGoesToTheGround : Obligations.TieGoesToTheGround := by
  refine ⟨rfl, rfl, rfl, fun sph gnd ts tg => ?_⟩
  rw [selectHit_eq]
  rcases lt_or_ge ts.toInt tg.toInt with hnear | htie
  · cases sph <;> cases gnd <;> simp [hnear, hnear.not_ge]
  · cases sph <;> cases gnd <;> simp [htie, htie.not_gt]

/-- The intersector in integer arithmetic (rules R161 to R164). -/
theorem intersect_eq (c : Config) (g : GlobalTables) (v : ViewTables) (x y : Nat) :
    let i := sphIndex c (pixelDD g x y)
    let diff : Int := g.oc2.toInt - (g.sphP2.getD i 0).toInt
    let k := selectHit (decide (0 < g.ocd.toInt ∧ (BitVec.ofInt 16 diff).toInt ≤ g.r2c.toInt)) (g.sphT.getD i 0)
      (v.ghit.getD y false) (v.gt.getD y 0)
    intersect c g v x y = ⟨⟨k.1, k.2, i⟩, (narrow16 diff).ovf⟩ := rfl

/-- Settles O41. -/
theorem isectResult : Obligations.IsectResult := fun x y s hx hy => by
  rw [exec_isect hx hy, State.commit_eq, intersect_eq, sphIndex_eq, State.noteOvf_eq_ite (narrow16_ovf_iff _),
    selectHit_eq]
  simp only [decide_eq_true_eq]
  refine congrArg _ ?_
  unfold pixelDD elem16
  split_ifs <;> rfl

end Sys2Proof.Machine
end

section
/-! The shader (42_intersect_shade.md rules R171 to R179; O43, O45, O46): the pixel of each surface in the result
registers, the dither threshold, and what SHADE reads. -/

namespace Sys2Proof.Machine

open Sys2Proof

/-! ## Dithering (rules R174, R175) -/

/-- A dithered colour as a result register holds it. -/
theorem dither_setWidth (bright : Byte) (xp yp : Bool) (surf : Surface) :
    (dither bright xp yp surf).setWidth 16 =
      if ditherM yp xp < bright.toNat then (litColour surf).setWidth 16 else 0 := by
  rw [dither, apply_ite (BitVec.setWidth 16)]
  rfl

/-- Settles O46. -/
theorem ditherResult : Obligations.DitherResult := fun bright xp yp surf s => by
  rw [exec_eq_effect rfl rfl, effect, dither_setWidth]
  cases xp <;> cases yp <;> cases surf <;> rfl

/-- The threshold of a pixel by the parity of its line and column. -/
theorem ditherM_parity (x y : Nat) :
    ditherM (parity y) (parity x) =
      if y % 2 = 0 then (if x % 2 = 0 then 0 else 128) else (if x % 2 = 0 then 192 else 64) := by
  rcases Nat.mod_two_eq_zero_or_one x with hx | hx <;> rcases Nat.mod_two_eq_zero_or_one y with hy | hy <;>
    simp [parity, ditherM, hx, hy]

/-- The colour of a shaded pixel is its brightness dithered at the pixel (rule R177). -/
theorem shaded_colour (x y : Nat) (surf : Surface) (k : Kind) (bright : Byte) :
    (shaded x y surf k bright).colour.setWidth 16 =
      if ditherM (parity y) (parity x) < bright.toNat then (litColour surf).setWidth 16 else 0 :=
  dither_setWidth bright (parity x) (parity y) surf

/-! ## Brightness (rules R171 to R173) -/

/-- A sphere pixel is at least as bright as AMBIENT, and its brightness is a byte. -/
theorem sphereBrightness_bounds (c : Config) (g : GlobalTables) (v : ViewTables) (x y : Nat) (t : I16) :
    50 ≤ (sphereBrightness c g v x y t).val.toNat ∧ (sphereBrightness c g v x y t).val.toNat ≤ 255 := by
  refine ⟨?_, Nat.le_of_lt_succ (BitVec.isLt _)⟩
  rw [sphereBrightness_val]
  generalize (dot3 (sphereNormal c g x y t).val v.light).val = ndl
  have hlambert := lambert_toNat c ndl
  split at hlambert
  case isTrue hlit =>
    have hdiff : 0 ≤ ndl.toInt * c.diffScale / 256 :=
      Int.ediv_nonneg (mul_nonneg hlit.le (Int.natCast_nonneg _)) (by decide)
    omega
  case isFalse => omega

/-- A ground pixel has the shadow table's brightness at its clamped squared distance to the shadow centre. -/
theorem groundBrightness_val (c : Config) (g : GlobalTables) (v : ViewTables) (x y : Nat) :
    let m : Int := (v.gt.getD y 0).toInt * (g.dx.getD x 0).toInt / 256
    let d2 : Int := (c.cam.x + BitVec.ofInt 16 m - v.sx).toInt ^ 2 / 256 + (v.sdz2.getD y 0).toInt
    (groundBrightness c g v x y).val = g.shd.getD (max 0 (min 127 (d2 / 2 ^ c.shdShift))).toNat 0 := by
  dsimp only
  rw [← shdIndex_eq, pow_two]
  simp only [groundBrightness, Flagged.bind_val, Flagged.map_val, add16_val, sub16_val, fxMul_val]
  rfl

theorem groundBrightness_ovf_iff (c : Config) (g : GlobalTables) (v : ViewTables) (x y : Nat) :
    let m : Int := (v.gt.getD y 0).toInt * (g.dx.getD x 0).toInt / 256
    (groundBrightness c g v x y).ovf = true ↔
      ¬ fits16 m ∨ ¬ fits16 (c.cam.x.toInt + (BitVec.ofInt 16 m).toInt) ∨
        ¬ fits16 ((c.cam.x + BitVec.ofInt 16 m).toInt - v.sx.toInt) := by
  rw [groundBrightness_ovf, Bool.or_eq_true, Bool.or_eq_true, fxMul_ovf_iff, add16_ovf_iff, sub16_ovf_iff, or_assoc]
  rfl

/-! ## SHADE -/

theorem exec_shade {x y : Nat} {s : State} (hx : x < s.cfg.w) (hy : y < s.cfg.h) :
    exec (.shade x y) s = .next (s.commit (shadePixel s.cfg s.tab s.view x y) fun k =>
      State.setR012 (k.colour.setWidth 16) (k.bright.setWidth 16) k.kind.code) :=
  exec_eq_effect (decide_eq_true ⟨hx, hy⟩) rfl

/-- Recording OVF changes no other bit of STATUS. -/
theorem State.noteOvf_status_eq (b : Bool) (s : State) :
    (s.noteOvf b).status = s.status ||| ((s.noteOvf b).status &&& 8) := by
  refine BitVec.eq_of_getLsbD_eq fun i hi => ?_
  cases b <;> interval_cases i <;> simp

theorem Kind.code_injective : Function.Injective Kind.code := by
  intro k k'
  cases k <;> cases k' <;> decide

/-- Settles O43. -/
theorem shadeResult : Obligations.ShadeResult := fun x y s hx hy => by
  refine ⟨_, _, exec_isect hx hy, exec_shade hx hy, ?_⟩
  simp only [State.commit_eq, State.setR012_r0, State.setR012_r1, State.setR012_r2, State.setR012_ovf,
    State.setR012_status, State.noteOvf_ovf, BitVec.toNat_setWidth_of_le (show 8 ≤ 16 by decide), ← ditherM_parity]
  refine ⟨?_, trivial, trivial, congrArg Kind.code shadePixel_kind, ?_, fun hsky => ?_, fun hsphere => ?_,
    fun hground => ?_⟩
  · rw [← State.noteOvf_status_eq]
    rfl
  · cases (intersect s.cfg s.tab s.view x y).val.kind <;> decide
  · rw [shadePixel_sky (Kind.code_injective hsky)]
    trivial
  · rw [shadePixel_sphere (Kind.code_injective hsphere)]
    obtain ⟨hlow, hhigh⟩ := sphereBrightness_bounds s.cfg s.tab s.view x y (intersect s.cfg s.tab s.view x y).val.t
    exact ⟨hlow, hhigh, rfl, shaded_colour x y .sphere .sphere _, (Bool.or_assoc _ _ _).symm⟩
  · rw [shadePixel_ground (Kind.code_injective hground)]
    refine ⟨congrArg _ (groundBrightness_val _ _ _ x y), shaded_colour x y .ground .ground _, ?_⟩
    rw [← Bool.or_assoc, Bool.or_eq_true]
    exact or_congr_right (groundBrightness_ovf_iff _ _ _ x y)

/-! ## What SHADE reads -/

theorem State.raiseError_of_err {s : State} (h : s.err = true) (c : ErrorCode) : s.raiseError c = s := by
  rw [State.raiseError, if_pos h]
  exact congrArg (fun st => { s with status := st }) (or_twoPow_of_getLsbD (i := 4) h)

/-- Delivering the same results and the same overflow again changes nothing. -/
theorem State.setR012_noteOvf_again (b : Bool) (u v w : BitVec 16) (s : State) :
    (((s.noteOvf b).setR012 u v w).noteOvf b).setR012 u v w = (s.noteOvf b).setR012 u v w := by
  rw [State.noteOvf_of_ovf (s := (s.noteOvf b).setR012 u v w) (by simp +contextual)]
  rfl

/-- Settles O45: SHADE's results are those of shade(x, y), which reads what SHADE leaves as it is; out of range the
error is there already. -/
theorem shadeIsPure : Obligations.ShadeIsPure := by
  refine ⟨fun x y s s' hx hy hcfg htab hview => ?_, fun x y s t h => ?_⟩
  · refine ⟨_, _, exec_shade hx hy, exec_shade (hcfg ▸ hx) (hcfg ▸ hy), ?_⟩
    rw [hcfg, htab, hview]
    exact ⟨rfl, rfl, rfl⟩
  · rcases exec_cases h with ⟨hr, rfl⟩ | ⟨-, hw, -⟩ | ⟨hr, -, rfl⟩
    · rw [exec_of_not_inRange (s := s.raiseError .range) hr, State.raiseError_of_err (State.raiseError_err _ s)]
    · cases hw
    · rw [exec_eq_effect (s := effect (.shade x y) s) hr rfl]
      exact congrArg _ (State.setR012_noteOvf_again _ _ _ _ s)

end Sys2Proof.Machine
end

section
/-! What rendering leaves (43_raster_cache.md rules R200 to R204; O48, O49, O50): the pixel bits of the bytes in ROWBUF,
where a scanline overflows, and scanlines of one tile row rendered in any order. -/

namespace Sys2Proof.Machine

open Sys2Proof

/-! ## Pixels -/

/-- Bit 7 - k of a plane byte of a tile column is that plane's bit of the colour of pixel `k` (rules R200, R202). -/
theorem packPlane_tileLine_getLsbD (c : Config) (g : GlobalTables) (v : ViewTables) (p y tc : Nat) {k : Nat}
    (hk : k < 8) : (packPlane p (tileLine c g v y tc).val).getLsbD (7 - k) =
      (shadePixel c g v (tc * 8 + k) y).val.colour.getLsbD p := by
  rw [packPlane_getLsbD p _ hk, tileLine_val, getD_range _ _ _ _ hk]

/-- The two bytes of pixel row `r` of tile column `tc`, with their pixel bits, where they hold the rendered tile row. -/
theorem planes_of_rowByte {c : Config} {g : GlobalTables} {v : ViewTables} {t : State} {tr tc r : Nat} (hr : r < 8)
    (h : ∀ j, j / 16 = tc → j % 16 / 2 = r → t.byte .rowbuf j = some (rowByte c g v tr j)) :
    ∃ lo hi : Byte,
      t.byte .rowbuf (tc * 16 + 2 * r) = some lo ∧ t.byte .rowbuf (tc * 16 + 2 * r + 1) = some hi ∧
      ∀ k, k < 8 →
        lo.getLsbD (7 - k) = (shadePixel c g v (tc * 8 + k) (tr * 8 + r)).val.colour.getLsbD 0 ∧
        hi.getLsbD (7 - k) = (shadePixel c g v (tc * 8 + k) (tr * 8 + r)).val.colour.getLsbD 1 := by
  have hbyte : ∀ j p, j / 16 = tc → j % 16 / 2 = r → j % 2 = p →
      t.byte .rowbuf j = some (packPlane p (tileLine c g v (tr * 8 + r) tc).val) := fun j p htc hline hp => by
    rw [h j htc hline, rowByte, htc, hline, hp]
  exact ⟨_, _, hbyte _ 0 (by omega) (by omega) (by omega), hbyte _ 1 (by omega) (by omega) (by omega), fun k hk =>
    ⟨packPlane_tileLine_getLsbD c g v 0 _ tc hk, packPlane_tileLine_getLsbD c g v 1 _ tc hk⟩⟩

/-! ## Overflow -/

/-- The pixels of a scanline in order are, tile column by tile column, the eight pixels of each. -/
theorem any_pixels (f : Nat → Bool) (n : Nat) :
    ((List.range n).any fun tc => (List.range 8).any fun k => f (tc * 8 + k)) = (List.range (n * 8)).any f := by
  have hcolumns := congrArg (·.any f) (flatMap_scanlines (fun x => [x]) n)
  simpa only [List.flatMap_singleton', List.any_flatMap, List.any_cons, List.any_nil, Bool.or_false] using
    hcolumns.symm

/-- A scanline overflows exactly where shading one of its pixels does. -/
theorem renderLineWrites_ovf_eq_any_pixel (c : Config) (g : GlobalTables) (v : ViewTables) (y : Nat) :
    (renderLineWrites c g v y).ovf = (List.range c.w).any fun x => (shadePixel c g v x y).ovf := by
  rw [renderLineWrites_ovf, any_pixels fun x => (shadePixel c g v x y).ovf, ← c.w_eq]

/-! ## Scanlines one after another -/

/-- The state after rendering scanlines one after another (rule R203). -/
def State.rendered (ys : List Nat) (s : State) : State :=
  (s.noteOvf (ys.any fun y => (renderLineWrites s.cfg s.tab s.view y).ovf)).setMem .rowbuf
    (s.rowbuf.writes (ys.flatMap fun y => (renderLineWrites s.cfg s.tab s.view y).val.map fun w => (w.1, some w.2)))

theorem renderLine_eq_rendered (y : Nat) (s : State) : renderLine y s = .ok (s.rendered [y]) := by
  simp [renderLine_ok, State.rendered]

theorem renderLines_eq_rendered (ys : List Nat) (s : State) : renderLines ys s = .ok (s.rendered ys) :=
  renderLines_ok ys s

theorem State.rendered_nil (s : State) : s.rendered [] = s :=
  Except.ok.inj (renderLines_eq_rendered [] s).symm

theorem State.rendered_cons (y : Nat) (ys : List Nat) (s : State) :
    s.rendered (y :: ys) = (s.rendered [y]).rendered ys := by
  have h := renderLines_eq_rendered (y :: ys) s
  rw [renderLines, renderLine_eq_rendered] at h
  exact Except.ok.inj (h.symm.trans (renderLines_eq_rendered ys _))

theorem State.rendered_status (ys : List Nat) (s : State) : (s.rendered ys).status =
    s.status ||| (if ys.any fun y => (renderLineWrites s.cfg s.tab s.view y).ovf then 8 else 0) := rfl

/-- Rendering changes ROWBUF and STATUS alone. -/
theorem State.rendered_frame (ys : List Nat) (s : State) :
    s.rendered ys = { s with rowbuf := (s.rendered ys).rowbuf, status := (s.rendered ys).status } := rfl

theorem exec_rendrow {tr : Nat} {s : State} (h : tr < s.cfg.h / 8) :
    exec (.rendrow tr) s = .next (s.rendered (linesOfRow tr)) :=
  exec_eq_effect (decide_eq_true h) rfl

theorem exec_rendline {y : Nat} {s : State} (h : y < s.cfg.h) : exec (.rendline y) s = .next (s.rendered [y]) := by
  rw [exec, execRendline, lineInRange, decide_eq_true h, checked_true, renderLine_eq_rendered, finish]

/-- RENDLINE of several scanlines is what RENDROW does with its eight. -/
theorem execAll_rendlines {ys : List Nat} {s : State} (h : ∀ y ∈ ys, y < s.cfg.h) :
    execAll (ys.map .rendline) s = .next (s.rendered ys) := by
  induction ys generalizing s with
  | nil => rw [State.rendered_nil]; rfl
  | cons y ys ih =>
    obtain ⟨hy, hys⟩ := List.forall_mem_cons.1 h
    rw [List.map_cons, execAll_cons (exec_rendline hy), State.rendered_cons y ys]
    exact ih hys

/-- Scanlines of tile row `tr` replace the bytes of their pixel rows in ROWBUF, in whatever order they come. -/
theorem State.rendered_byte {ys : List Nat} {tr : Nat} (s : State) (h : ∀ y ∈ ys, y / 8 = tr) (a : Nat) :
    (s.rendered ys).byte .rowbuf a =
      if a < s.cfg.w / 8 * 16 ∧ tr * 8 + a % 16 / 2 ∈ ys then some (rowByte s.cfg s.tab s.view tr a)
      else s.byte .rowbuf a := by
  rw [State.rendered, State.setMem_byte_same, Memory.read_writes_of_fun (f := rowByte s.cfg s.tab s.view tr)]
  · refine if_congr ?_ rfl rfl
    simp only [List.mem_map, List.mem_flatMap]
    constructor
    · rintro ⟨_, ⟨y, hy, w, hw, rfl⟩, rfl⟩
      obtain ⟨hin, hline, -⟩ := mem_renderLineWrites.1 hw
      have hrow := h y hy
      exact ⟨hin, by rwa [hline, ← hrow, Nat.div_add_mod']⟩
    · rintro ⟨hin, hy⟩
      have hstored : (a, rowByte s.cfg s.tab s.view tr a) ∈
          (renderLineWrites s.cfg s.tab s.view (tr * 8 + a % 16 / 2)).val :=
        mem_renderLineWrites.2 ⟨hin, by simp only; omega, by rw [h _ hy]⟩
      exact ⟨_, ⟨_, hy, _, hstored, rfl⟩, rfl⟩
  · simp only [List.mem_map, List.mem_flatMap]
    rintro _ ⟨y, hy, w, hw, rfl⟩
    obtain ⟨-, -, hbyte⟩ := mem_renderLineWrites.1 hw
    rw [hbyte, h y hy]

theorem mem_linesOfRow {tr y : Nat} : y ∈ linesOfRow tr ↔ y / 8 = tr := by
  simp only [linesOfRow, List.mem_map, List.mem_range]
  exact ⟨fun ⟨r, hr, hy⟩ => by omega, fun hy => ⟨y % 8, by omega, by omega⟩⟩

/-! ## The statements -/

/-- Settles O48: RENDLINE renders the list of its one scanline. -/
theorem rendlineResult : Obligations.RendlineResult := fun y s hy => by
  have hbyte := s.rendered_byte (ys := [y]) (tr := y / 8) fun _ h => by rw [List.mem_singleton.1 h]
  simp only [List.mem_singleton] at hbyte
  refine ⟨_, exec_rendline hy, State.rendered_frame _ s, ?_, fun tc htc => ?_, fun a ha => ?_⟩
  · rw [State.rendered_status, List.any_cons, List.any_nil, Bool.or_false, renderLineWrites_ovf_eq_any_pixel]
  · have hplanes := planes_of_rowByte (tc := tc) (Nat.mod_lt y (by decide)) fun j hj hline =>
      (hbyte j).trans (if_pos ⟨by omega, by omega⟩)
    rwa [Nat.div_add_mod'] at hplanes
  · rw [hbyte, if_neg]
    rintro ⟨hin, hline⟩
    have := ha (a / 16) (by omega)
    omega

/-- Settles O49: every byte of ROWBUF is in a pixel row of one of the eight scanlines RENDROW renders. -/
theorem rendrowResult : Obligations.RendrowResult := fun tr s htr => by
  have hbyte := s.rendered_byte (ys := linesOfRow tr) fun _ => mem_linesOfRow.1
  refine ⟨_, exec_rendrow htr, State.rendered_frame _ s, ?_,
    fun tc r htc hr => planes_of_rowByte hr fun j hj hline => ?_, fun a ha => ?_⟩
  · rw [State.rendered_status, linesOfRow, List.any_map]
    simp only [Function.comp_def, renderLineWrites_ovf_eq_any_pixel]
  · rw [hbyte, if_pos ⟨by omega, mem_linesOfRow.2 (by omega)⟩]
  · rw [hbyte, if_neg (by omega)]

/-- Settles O50: both render a list of scanlines of the tile row, and neither the bytes nor the overflow depends on the
order of the list. -/
theorem eightRendlinesEqualRendrow : Obligations.EightRendlinesEqualRendrow := fun tr ys s htr hperm => by
  have hperm : ys.Perm (linesOfRow tr) := hperm
  have hrow : ∀ y ∈ ys, y / 8 = tr := fun y hy => mem_linesOfRow.1 (hperm.mem_iff.1 hy)
  refine ⟨_, _, exec_rendrow htr, execAll_rendlines fun y hy => ?_, fun a => ?_, ?_⟩
  · have := hrow y hy
    omega
  · rw [s.rendered_byte hrow, s.rendered_byte fun _ => mem_linesOfRow.1]
    simp only [hperm.mem_iff]
  · rw [State.rendered_status, State.rendered_status, hperm.any_eq]

end Sys2Proof.Machine
end

section
/-! The round trip of a tile row through the scene cache (rule R209 (a); O56). -/

namespace Sys2Proof.Machine

open Sys2Proof

/-- A command keeps each canonical memory canonical. -/
theorem exec_mem_wf {i : Instr} {s t : State} {sp : Space} (h : exec i s = .next t) (hwf : (s.mem sp).wf = true) :
    (t.mem sp).wf = true := by
  obtain ⟨ws, ht, -⟩ := exec_mem h sp
  exact ht ▸ Memory.writes_wf ws hwf

/-- Settles O56: STOREROW then LOADSCENE moves a byte of ROWBUF by the distance UPROW moves it. -/
theorem cacheRoundTrip : Obligations.CacheRoundTrip := fun v tr s htr hv hdisp hcache => by
  have hrend := exec_rendrow htr
  generalize s.rendered (linesOfRow tr) = r at hrend
  obtain ⟨hcfg, hvblank, -⟩ := exec_inputs hrend
  rw [← hcfg] at htr ⊢
  rw [← hvblank] at hv
  have hdisp := exec_mem_wf (sp := .disp) hrend hdisp
  obtain ⟨p, hstore, -, hstored, -⟩ := storerowResult v tr r htr (exec_mem_wf hrend hcache)
  obtain ⟨hcfg', hvblank', -⟩ := exec_inputs hstore
  obtain ⟨t, hload, -, hloaded, -⟩ :=
    loadsceneResult v p (hvblank'.trans hv) (exec_mem_wf (sp := .disp) hstore hdisp)
  obtain ⟨u, hup, -, huploaded, -⟩ := uprowResult tr r htr hv hdisp
  rw [hcfg'] at hloaded
  refine ⟨t, u, by simp only [execAll, hrend, hstore, hload], by simp only [execAll, hrend, hup], fun j hj => ?_⟩
  have htc : j / 16 < r.cfg.w / 8 := by omega
  have hn : tr * (r.cfg.w / 8) + j / 16 < r.cfg.w / 8 * (r.cfg.h / 8) := tile_lt htr htc
  have hk : j % 16 < 16 := by omega
  rw [show (r.cfg.tileBase + tr * (r.cfg.w / 8)) * 16 + j =
      (r.cfg.tileBase + (tr * (r.cfg.w / 8) + j / 16)) * 16 + j % 16 by omega,
    hloaded _ _ hn hk, huploaded _ _ htc hk,
    show (tr * (r.cfg.w / 8) + j / 16) * 16 + j % 16 = tr * (r.cfg.w / 8) * 16 + j by omega, hstored j hj,
    Nat.div_add_mod']

end Sys2Proof.Machine
end

section
/-! The first error wins (60_exceptions.md rule R232; O10): an error that finds ERR clear leaves its mark in STATUS and
ERRCODE, and one that finds ERR set finds its work done (`State.raiseError_of_err`). -/

namespace Sys2Proof.Machine

open Sys2Proof

/-- The first error sets ERR and records its code. -/
theorem State.raiseError_of_not_err {s : State} (h : s.err = false) (c : ErrorCode) :
    s.raiseError c = { s with status := s.status ||| 0x0010, errcode := c.code } := by
  rw [State.raiseError, h, if_neg Bool.false_ne_true]

/-- Settles O10: ERR decides whether an error is the first one or a later one. -/
theorem firstErrorWins : Obligations.FirstErrorWins := fun c _ =>
  ⟨fun h => State.raiseError_of_not_err h c, fun h => State.raiseError_of_err h c⟩

end Sys2Proof.Machine
end

section
/-! A word the decoder accepts is run as its command (70_reset_and_hazards.md rule R260; O5). -/

namespace Sys2Proof.Machine

open Sys2Proof

/-- The command that a word decodes to is executed. -/
theorem runWord_of_ok {cw : CmdWord} {i : Instr} (hdecode : decode cw = .ok i) (s : State) :
    runWord cw s = exec i s := by
  rw [runWord, hdecode]

/-- Settles O5: the step runs the presented word, which decodes to its command. -/
theorem stepRunsTheDecodedCommand : Obligations.StepRunsTheDecodedCommand :=
  fun _ _ _ _ hheld hevents hdecode => by
  rw [step_of_command hheld hevents, runWord_of_ok hdecode]

end Sys2Proof.Machine
end
